-- ==== Sys2Proof/Word.lean ====
section
/-! DEFINITION. Widths and the fixed-size value types of the engine: bytes, 32-bit bus words, window offsets
(20_memory.md R35, R37) and the 64-byte buffers (10_state.md R25). -/

namespace Sys2Proof

/-- A buffer byte or GF(256) element (00_scope.md R11, 20_memory.md R51). -/
abbrev Byte := BitVec 8

/-- A register, a bus word or a command word (20_memory.md R37, 30_encoding.md R52). -/
abbrev Word := BitVec 32

/-- A byte offset 0x000..0x3FF in the engine's window (20_memory.md R35). -/
abbrev Offset := BitVec 10

/-- A 64-byte buffer: byte `k` is the coefficient of `x^k` in the polynomial buffers, and `BLK[0]` is the
coefficient of the highest power in the codeword block (00_scope.md R11, 10_state.md R25). -/
abbrev Poly := Vector Byte 64

end Sys2Proof
end

