-- ==== Sys2Proof/Config.lean ====
section
/-! DEFINITION. The engine's parameters (00_scope.md R7): the values the spec fixes, and those it leaves OPEN as
uninterpreted constants with no body, so that no proof can lean on a value of them. -/

namespace Sys2Proof.Config

/-- ID reads this constant, "MQEC" (10_state.md R15). -/
def idValue : Word := 0x4D514543

/-- CAPS reads this constant (10_state.md R16). -/
def capsValue : Word := 0x07014040

/-- Bytes of the register window (20_memory.md R35). -/
def windowBytes : Nat := 1024

/-- OPEN: which 1024-byte page of the host bus the window is. -/
opaque enginePage : Nat

/-- ENGINE_BASE, the bus address of offset 0: any multiple of 1024 (20_memory.md R36, decision D9). -/
def engineBase : Nat := enginePage * windowBytes

/-- OPEN: IRQ_LINE, the host interrupt controller's input that `irq` drives (20_memory.md R36). -/
opaque irqLine : Nat

/-- OPEN: how many cycles beyond the first a command with this opcode may take. -/
opaque extraLatency : Byte → Nat

/-- CMD_LATENCY(op), in cycles: finite and at least 1, otherwise open (00_scope.md R7, decision D10). -/
def cmdLatency (op : Byte) : Nat := extraLatency op + 1

/-- OPEN: the length of RESET_HOLD, how long the hardware reset input must be held (00_scope.md R7,
70_reset_and_hazards.md R128). DESIGN CHOICE, unsafe (log entry 24): it is counted in clock cycles. -/
opaque resetHold : Nat

/-- OPEN: the synchronism of RESET_HOLD, whether the hardware reset input is synchronous (00_scope.md R7,
70_reset_and_hazards.md R128). DESIGN CHOICE, unsafe (log entry 24): a synchronous input resets the engine in a clock
cycle, an asynchronous one as soon as it is asserted. -/
opaque resetSynchronous : Bool

end Sys2Proof.Config
end

