-- ==== Sys2Proof/Syntax.lean ====
section
/-! DEFINITION. The commands: one constructor of `Instr` per row of spec/opcode_table.json (30_encoding.md R55), with
every operand at its field's exact width (R54), and `Asm`, the assembly forms with pseudo-commands (R58, R59), whose
operands are plain integers that may not fit. -/

namespace Sys2Proof

/-- The field a GF command works in: the F bit of the command word (30_encoding.md R53). -/
inductive GField where
  /-- F = 0 -/
  | gf256
  /-- F = 1 -/
  | gf16
  deriving DecidableEq, Repr

/-- The engine's sixteen commands (30_encoding.md R55). -/
inductive Instr where
  | nop
  | rsGen
  | rsEnc
  | rsSyn
  | rsBm
  | rsOmega
  | rsChien
  | rsDec
  | gfAdd (f : GField) (a b : Byte)
  | gfMul (f : GField) (a b : Byte)
  | gfDiv (f : GField) (a b : Byte)
  | gfExp (f : GField) (a : Byte)
  | gfLog (f : GField) (a : Byte)
  | fmtEnc (payload : BitVec 5)
  | fmtDec (obs : BitVec 15)
  | symLookup (version ecc : BitVec 3)
  deriving DecidableEq, Repr

/-- One line of the assembly syntax: the mnemonics of 30_encoding.md R58 and the pseudo-commands of R59, with integer
operands as the assembler reads them. `gf.x` is the form with `.gf256`, `gf16.x` the one with `.gf16`. -/
inductive Asm where
  | nop
  | rsGen
  | rsEnc
  | rsSyn
  | rsBm
  | rsOmega
  | rsChien
  | rsDec
  | gfAdd (f : GField) (a b : Nat)
  | gfMul (f : GField) (a b : Nat)
  | gfDiv (f : GField) (a b : Nat)
  | gfExp (f : GField) (a : Nat)
  | gfLog (f : GField) (a : Nat)
  | fmtEnc (payload : Nat)
  | fmtDec (obs : Nat)
  | symLookup (version ecc : Nat)
  /-- `gf.inv B` and `gf16.inv B` -/
  | gfInv (f : GField) (b : Nat)
  /-- `gf.sqr A` -/
  | gfSqr (a : Nat)
  /-- `gf.alpha E` -/
  | gfAlpha (e : Nat)
  /-- `fmt.enc SYM, MASK` -/
  | fmtEncSym (sym mask : Nat)
  /-- `rs.check` -/
  | rsCheck
  deriving DecidableEq, Repr

end Sys2Proof
end

