-- ==== Sys2Proof/WellFormed.lean ====
section
/-! DEFINITION. Which assembly lines the assembler takes (30_encoding.md R58: it "refuses an operand that does not fit
its field; it never truncates"). A term of `Instr` carries each operand at its field's width, so every `Instr` is well
formed by its type and no check on it is left to make. -/

namespace Sys2Proof

/-- An 8-bit operand field. -/
def fitsByte (n : Nat) : Bool := n < 256

/-- Every operand of the line fits its field (30_encoding.md R54, R58; SYM and MASK of the pseudo-command, R59). -/
def Asm.wellFormed : Asm → Bool
  | .nop | .rsGen | .rsEnc | .rsSyn | .rsBm | .rsOmega | .rsChien | .rsDec | .rsCheck => true
  | .gfAdd _ a b | .gfMul _ a b | .gfDiv _ a b => fitsByte a && fitsByte b
  | .gfExp _ a | .gfLog _ a => fitsByte a
  | .fmtEnc p => p < 32
  | .fmtDec obs => obs < 0x8000
  | .symLookup v e => v < 8 && e < 8
  | .gfInv _ b => fitsByte b
  | .gfSqr a => fitsByte a
  | .gfAlpha e => fitsByte e
  | .fmtEncSym sym mask => sym < 8 && mask < 4

end Sys2Proof
end

