-- ==== Sys2Proof/Decode.lean ====
section
/-! DEFINITION. Command decoding (30_encoding.md R55 to R57), total on every 32-bit word and rejecting by name; the
encoder, written from the field layouts of R53 and R54; and the assembler of R58 and R59. -/

namespace Sys2Proof

/-- Why a word is ILLEGAL: the four grounds of 30_encoding.md R57. The engine reports ILLEGAL_CMD for all of them. -/
inductive Illegal where
  /-- OP is not one of 0x00..0x07, 0x10..0x14, 0x20..0x22 -/
  | unassignedOpcode
  /-- a reserved bit [15:9] is 1 -/
  | reservedBits
  /-- F = 1 and OP is not a GF command -/
  | fieldSelect
  /-- a "must be 0" ARG bit of the command is 1 -/
  | argumentBits
  deriving DecidableEq, Repr

/-- What `decode` answers (30_encoding.md R56). -/
inductive Decoded where
  | command (i : Instr)
  | illegal (why : Illegal)
  deriving DecidableEq, Repr

/-- A row of the opcode map (30_encoding.md R55): the fixed bits as match and mask, and how the command's free fields
are taken from the word. -/
structure OpRow where
  mnemonic : String
  pat : Word
  mask : Word
  build : Word → Instr

/-- OP, bits [7:0] (30_encoding.md R53). -/
def opField (w : Word) : Byte := w.extractLsb' 0 8

/-- F, bit [8] (30_encoding.md R53). -/
def fieldSelect (w : Word) : GField := if w.getLsbD 8 then .gf16 else .gf256

/-- ARG[7:0], bits [23:16]: operand A (30_encoding.md R54). -/
def fieldA (w : Word) : Byte := w.extractLsb' 16 8

/-- ARG[15:8], bits [31:24]: operand B (30_encoding.md R54). -/
def fieldB (w : Word) : Byte := w.extractLsb' 24 8

/-- The opcode map (30_encoding.md R55; spec/opcode_table.json). -/
def opcodeMap : List OpRow := [
  ⟨"NOP",        0x00000000, 0xFFFFFFFF, fun _ => .nop⟩,
  ⟨"RS_GEN",     0x00000001, 0xFFFFFFFF, fun _ => .rsGen⟩,
  ⟨"RS_ENC",     0x00000002, 0xFFFFFFFF, fun _ => .rsEnc⟩,
  ⟨"RS_SYN",     0x00000003, 0xFFFFFFFF, fun _ => .rsSyn⟩,
  ⟨"RS_BM",      0x00000004, 0xFFFFFFFF, fun _ => .rsBm⟩,
  ⟨"RS_OMEGA",   0x00000005, 0xFFFFFFFF, fun _ => .rsOmega⟩,
  ⟨"RS_CHIEN",   0x00000006, 0xFFFFFFFF, fun _ => .rsChien⟩,
  ⟨"RS_DEC",     0x00000007, 0xFFFFFFFF, fun _ => .rsDec⟩,
  ⟨"GF_ADD",     0x00000010, 0x0000FEFF, fun w => .gfAdd (fieldSelect w) (fieldA w) (fieldB w)⟩,
  ⟨"GF_MUL",     0x00000011, 0x0000FEFF, fun w => .gfMul (fieldSelect w) (fieldA w) (fieldB w)⟩,
  ⟨"GF_DIV",     0x00000012, 0x0000FEFF, fun w => .gfDiv (fieldSelect w) (fieldA w) (fieldB w)⟩,
  ⟨"GF_EXP",     0x00000013, 0xFF00FEFF, fun w => .gfExp (fieldSelect w) (fieldA w)⟩,
  ⟨"GF_LOG",     0x00000014, 0xFF00FEFF, fun w => .gfLog (fieldSelect w) (fieldA w)⟩,
  ⟨"FMT_ENC",    0x00000020, 0xFFE0FFFF, fun w => .fmtEnc (w.extractLsb' 16 5)⟩,
  ⟨"FMT_DEC",    0x00000021, 0x8000FFFF, fun w => .fmtDec (w.extractLsb' 16 15)⟩,
  ⟨"SYM_LOOKUP", 0x00000022, 0xFF88FFFF, fun w => .symLookup (w.extractLsb' 16 3) (w.extractLsb' 20 3)⟩]

/-- The word's fixed bits are the row's (30_encoding.md R56). -/
def OpRow.hits (r : OpRow) (w : Word) : Bool := w &&& r.mask == r.pat

/-- OP is an assigned opcode (30_encoding.md R57, first ground). -/
def opAssigned (op : Byte) : Bool := op ≤ 0x07 || (0x10 ≤ op && op ≤ 0x14) || (0x20 ≤ op && op ≤ 0x22)

/-- OP is a GF command (30_encoding.md R53, R57). -/
def opIsGf (op : Byte) : Bool := 0x10 ≤ op && op ≤ 0x14

/-- The "must be 0" bits of ARG for an assigned opcode (30_encoding.md R54). -/
def argMustBeZero (op : Byte) : BitVec 16 :=
  if op ≤ 0x07 then 0xFFFF
  else if op ≤ 0x12 then 0x0000
  else if op ≤ 0x14 then 0xFF00
  else if op = 0x20 then 0xFFE0
  else if op = 0x21 then 0x8000
  else 0xFF88

/-- The first ground of 30_encoding.md R57 that holds for a word no row matches. -/
def illegalReason (w : Word) : Illegal :=
  if !opAssigned (opField w) then .unassignedOpcode
  else if w.extractLsb' 9 7 ≠ 0 then .reservedBits
  else if w.getLsbD 8 && !opIsGf (opField w) then .fieldSelect
  else .argumentBits

/-- Decoding (30_encoding.md R56): the row whose fixed bits the word has, with its free fields; else ILLEGAL. -/
def decode (w : Word) : Decoded :=
  match opcodeMap.find? (·.hits w) with
  | some r => .command (r.build w)
  | none => .illegal (illegalReason w)

/-- A command word from its fields (30_encoding.md R53): ARG || reserved 0 || F || OP. -/
def commandWord (op : Byte) (f : BitVec 1) (arg : BitVec 16) : Word := arg ++ (0#7 ++ (f ++ op))

/-- The F bit of a field (30_encoding.md R53). -/
def GField.bit : GField → BitVec 1
  | .gf256 => 0
  | .gf16 => 1

/-- The opcode of each command (30_encoding.md R55). -/
def Instr.opcode : Instr → Byte
  | .nop => 0x00
  | .rsGen => 0x01
  | .rsEnc => 0x02
  | .rsSyn => 0x03
  | .rsBm => 0x04
  | .rsOmega => 0x05
  | .rsChien => 0x06
  | .rsDec => 0x07
  | .gfAdd .. => 0x10
  | .gfMul .. => 0x11
  | .gfDiv .. => 0x12
  | .gfExp .. => 0x13
  | .gfLog .. => 0x14
  | .fmtEnc _ => 0x20
  | .fmtDec _ => 0x21
  | .symLookup .. => 0x22

/-- The F bit of each command: 0 for every command that is not a GF command (30_encoding.md R53). -/
def Instr.fBit : Instr → BitVec 1
  | .gfAdd f _ _ | .gfMul f _ _ | .gfDiv f _ _ | .gfExp f _ | .gfLog f _ => f.bit
  | .nop | .rsGen | .rsEnc | .rsSyn | .rsBm | .rsOmega | .rsChien | .rsDec => 0
  | .fmtEnc _ | .fmtDec _ | .symLookup .. => 0

/-- ARG of each command (30_encoding.md R54). -/
def Instr.arg : Instr → BitVec 16
  | .nop | .rsGen | .rsEnc | .rsSyn | .rsBm | .rsOmega | .rsChien | .rsDec => 0
  | .gfAdd _ a b | .gfMul _ a b | .gfDiv _ a b => b ++ a
  | .gfExp _ a | .gfLog _ a => 0#8 ++ a
  | .fmtEnc payload => 0#11 ++ payload
  | .fmtDec obs => 0#1 ++ obs
  | .symLookup version ecc => 0#9 ++ (ecc ++ (0#1 ++ version))

/-- The command word of a command (30_encoding.md R53 to R55). -/
def encode (i : Instr) : Word := commandWord i.opcode i.fBit i.arg

/-- The command of an assembly line whose operands fit: the pseudo-commands by their expansions (30_encoding.md R58,
R59). -/
def Asm.toInstr : Asm → Instr
  | .nop => .nop
  | .rsGen => .rsGen
  | .rsEnc => .rsEnc
  | .rsSyn => .rsSyn
  | .rsBm => .rsBm
  | .rsOmega => .rsOmega
  | .rsChien => .rsChien
  | .rsDec => .rsDec
  | .gfAdd f a b => .gfAdd f (.ofNat 8 a) (.ofNat 8 b)
  | .gfMul f a b => .gfMul f (.ofNat 8 a) (.ofNat 8 b)
  | .gfDiv f a b => .gfDiv f (.ofNat 8 a) (.ofNat 8 b)
  | .gfExp f a => .gfExp f (.ofNat 8 a)
  | .gfLog f a => .gfLog f (.ofNat 8 a)
  | .fmtEnc p => .fmtEnc (.ofNat 5 p)
  | .fmtDec obs => .fmtDec (.ofNat 15 obs)
  | .symLookup v e => .symLookup (.ofNat 3 v) (.ofNat 3 e)
  | .gfInv f b => .gfDiv f 1 (.ofNat 8 b)
  | .gfSqr a => .gfMul .gf256 (.ofNat 8 a) (.ofNat 8 a)
  | .gfAlpha e => .gfExp .gf256 (.ofNat 8 e)
  | .fmtEncSym sym mask => .fmtEnc (.ofNat 5 (sym * 4 + mask))
  | .rsCheck => .rsSyn

/-- The assembler (30_encoding.md R58): the line's command word, or nothing where an operand does not fit. -/
def Asm.assemble (a : Asm) : Option Word := if a.wellFormed then some (encode a.toInstr) else none

/-- The command of a word whose bits are numbered as spec/opcode_table.json numbers them: one 32-bit word
(30_encoding.md R52), the bits from `nbits` up being 0. -/
def decodeTableWord (nbits w : Nat) : Option Instr :=
  match decode (.ofNat 32 (w % 2 ^ nbits)) with
  | .command i => some i
  | .illegal _ => none

end Sys2Proof
end

