-- ==== Sys2Proof/Machine/State.lean ====
section
/-! DEFINITION. The engine's state as plain data (10_state.md R13 to R34), the data that crosses its port, the reasons
a step could stop (none does), and the state right after reset. -/

namespace Sys2Proof.Machine

/-- The sequencer's phase (10_state.md R29). -/
inductive Phase where
  | idle
  | busy
  deriving DecidableEq, Repr

/-- The error codes a command can complete with (60_exceptions.md R113); 10..15 are reserved and never written. -/
inductive ErrCode where
  | ok
  | illegalCmd
  | badParam
  | badOperand
  | gfDiv0
  | gfLog0
  | rsUncorrectable
  | fmtTooManyErrors
  | fmtAmbiguous
  | badCombination
  deriving DecidableEq, Repr

/-- The stored fields of CFG (10_state.md R21). -/
structure Cfg where
  k : BitVec 7
  npar : BitVec 7
  sym : BitVec 3
  useSym : Bool
  deriving DecidableEq, Repr

/-- The stored fields of RS_INFO (10_state.md R24). -/
structure RsInfo where
  l : BitVec 7
  ncorr : BitVec 7
  nparUsed : BitVec 6
  synNz : Bool
  deriving DecidableEq, Repr

/-- The six buffers (10_state.md R25). -/
inductive Buffer where
  | blk
  | syn
  | sigma
  | sderiv
  | omega
  | gen
  deriving DecidableEq, Repr

/-- What an offset of the window holds (10_state.md R14). -/
inductive Target where
  | id
  | caps
  | ctrl
  | status
  | cmd
  | cfg
  | result
  | rsInfo
  /-- word `w` of a buffer -/
  | buffer (b : Buffer) (w : Fin 16)
  | unmapped
  deriving DecidableEq, Repr

/-- The width of a host access (20_memory.md R37, R38). -/
inductive Width where
  | byte
  | half
  | word
  deriving DecidableEq, Repr

/-- One host access to the window (20_memory.md R37): `MemRead` or `MemWrite` at a byte offset from ENGINE_BASE. -/
inductive Access where
  | read (width : Width) (off : Offset)
  | write (width : Width) (off : Offset) (v : Word)
  deriving DecidableEq, Repr

/-- The port's answer to an access: whether it is an error response (20_memory.md R38), and the value of a read. -/
structure Response where
  error : Bool
  data : Option Word
  deriving DecidableEq, Repr

/-- What can happen to the engine next, from outside it. -/
inductive Event where
  /-- the port receives this access next (20_memory.md R46) -/
  | access (a : Access)
  /-- a clock cycle passes; `finish` is the choice 40_command_execution.md R64 leaves open, whether a running command
  completes in it before CMD_LATENCY makes it -/
  | cycle (finish : Bool)
  /-- the platform drives the hardware reset input (70_reset_and_hazards.md R128) -/
  | resetInput (asserted : Bool)
  /-- the platform removes power and returns it (60_exceptions.md R127) -/
  | powerCycle
  deriving DecidableEq, Repr

/-- The whole state. The fields down to `phase` are the spec's (10_state.md R13); ID, CAPS, STATUS.BUSY, STATUS.ERR and
irq are functions of them (Machine/Flags.lean). The others are the model's: `resetPin` is the level of the reset input
(70_reset_and_hazards.md R128), `busyCycles` the cycles the running command has had, `response` the answer to the last
access, `agenda` what is still to happen, oldest first. -/
structure State where
  /-- CTRL.IE -/
  ie : Bool
  /-- STATUS.DONE -/
  done : Bool
  /-- STATUS.BUSY_ACC -/
  busyAcc : Bool
  /-- STATUS.CMD_OVF -/
  cmdOvf : Bool
  /-- STATUS.ERRCODE -/
  errcode : ErrCode
  /-- STATUS.LAST_OP -/
  lastOp : Byte
  /-- CMD_LAST -/
  cmdLast : Word
  /-- CFG -/
  cfg : Cfg
  /-- RESULT -/
  result : Word
  /-- RS_INFO -/
  rsInfo : RsInfo
  /-- BLK -/
  blk : Poly
  /-- SYN -/
  syn : Poly
  /-- SIGMA -/
  sigma : Poly
  /-- SDERIV -/
  sderiv : Poly
  /-- OMEGA -/
  omega : Poly
  /-- GEN -/
  gen : Poly
  phase : Phase
  resetPin : Bool
  busyCycles : Nat
  response : Option Response
  agenda : List Event
  deriving DecidableEq, Repr

/-- Nothing stops this machine: every command error is a code in STATUS at its completion (60_exceptions.md R113,
R118) and every access gets an answer. So there is no fault for anything to raise, which is safe. -/
inductive Fault where
  deriving DecidableEq, Repr

/-- Why a step would have no meaning. -/
inductive Refusal where
  /-- Raised by an arm of `exec` whose command has no meaning yet (none now); safe, since the machine stops. -/
  | notModelled (mnemonic : String)
  deriving DecidableEq, Repr

/-- The state after a hardware or soft reset, every value as 10_state.md R34 states it; the reset input is released and
nothing is pending at the port. -/
def State.reset : State where
  ie := false
  done := false
  busyAcc := false
  cmdOvf := false
  errcode := .ok
  lastOp := 0
  cmdLast := 0
  cfg := ⟨0, 0, 0, false⟩
  result := 0
  rsInfo := ⟨0, 0, 0, false⟩
  blk := Vector.replicate 64 0
  syn := Vector.replicate 64 0
  sigma := Vector.replicate 64 0
  sderiv := Vector.replicate 64 0
  omega := Vector.replicate 64 0
  gen := Vector.replicate 64 0
  phase := .idle
  resetPin := false
  busyCycles := 0
  response := none
  agenda := []

end Sys2Proof.Machine
end

