-- ==== Sys2Proof/Machine/Flags.lean ====
section
/-! DEFINITION. The register words as the host reads them, built from the stored fields (10_state.md R17 to R24), the
interrupt output (R30), and the writes of flag bits (R17, R19). -/

namespace Sys2Proof.Machine

/-- The number of an error code (60_exceptions.md R113). -/
def ErrCode.code : ErrCode → BitVec 4
  | .ok => 0
  | .illegalCmd => 1
  | .badParam => 2
  | .badOperand => 3
  | .gfDiv0 => 4
  | .gfLog0 => 5
  | .rsUncorrectable => 6
  | .fmtTooManyErrors => 7
  | .fmtAmbiguous => 8
  | .badCombination => 9

/-- STATUS.BUSY (10_state.md R18, R29). -/
def State.busyFlag (s : State) : Bool := s.phase == .busy

/-- STATUS.ERR reads `ERRCODE != 0` (10_state.md R18). -/
def State.errFlag (s : State) : Bool := s.errcode.code != 0

/-- `irq = x[CTRL].IE and x[STATUS].DONE` (10_state.md R30, 60_exceptions.md R117). -/
def State.irq (s : State) : Bool := s.ie && s.done

/-- The level at input `line` of the host's interrupt controller that comes from the engine: `irq` at IRQ_LINE and no
other (20_memory.md R36, 60_exceptions.md R117). -/
def State.irqAt (s : State) (line : Nat) : Bool := line == Config.irqLine && s.irq

/-- CTRL as it reads: IE in bit 0, all else 0 (10_state.md R17). -/
def ctrlWord (s : State) : Word := 0#31 ++ BitVec.ofBool s.ie

/-- STATUS as it reads (10_state.md R18). -/
def statusWord (s : State) : Word :=
  0#8 ++ (s.lastOp ++ (0#4 ++ (s.errcode.code ++ (0#3 ++ (BitVec.ofBool s.cmdOvf ++ (BitVec.ofBool s.busyAcc ++
    (BitVec.ofBool s.errFlag ++ (BitVec.ofBool s.done ++ BitVec.ofBool s.busyFlag))))))))

/-- CFG as it reads (10_state.md R21). -/
def cfgWord (c : Cfg) : Word :=
  0#12 ++ (BitVec.ofBool c.useSym ++ (c.sym ++ (0#1 ++ (c.npar ++ (0#1 ++ c.k)))))

/-- The fields a write of `v` stores in CFG, "exactly as written" (10_state.md R21). -/
def cfgOfWord (v : Word) : Cfg :=
  ⟨v.extractLsb' 0 7, v.extractLsb' 8 7, v.extractLsb' 16 3, v.getLsbD 19⟩

/-- RS_INFO as it reads (10_state.md R24). -/
def rsInfoWord (r : RsInfo) : Word :=
  0#7 ++ (BitVec.ofBool r.synNz ++ (0#2 ++ (r.nparUsed ++ (0#1 ++ (r.ncorr ++ (0#1 ++ r.l))))))

/-- A write of `v` to STATUS clears DONE, BUSY_ACC and CMD_OVF where bits 1, 3 and 4 of `v` are 1 (10_state.md R19). -/
def writeStatus (v : Word) (s : State) : State :=
  { s with
    done := s.done && !v.getLsbD 1
    busyAcc := s.busyAcc && !v.getLsbD 3
    cmdOvf := s.cmdOvf && !v.getLsbD 4 }

end Sys2Proof.Machine
end

