-- ==== Sys2Proof/Machine/Operands.lean ====
section
/-! DEFINITION. Where commands and accesses find their operands: the RS block geometry from CFG (10_state.md R22,
40_command_execution.md R67), the GF operand check (41_galois_field.md R81), the buffers of the state and the window's
register map (10_state.md R14, R25). -/

namespace Sys2Proof.Machine

/-- NPAR_EFF (10_state.md R22). -/
def Cfg.nparEff (c : Cfg) : Nat := if c.useSym then nparTable c.sym else c.npar.toNat

/-- K_EFF (10_state.md R22). -/
def Cfg.kEff (c : Cfg) : Nat := c.k.toNat

/-- N_EFF, the block length (10_state.md R22). -/
def Cfg.nEff (c : Cfg) : Nat := c.kEff + c.nparEff

/-- `npar_ok`, the check of RS_GEN, RS_BM and RS_OMEGA (40_command_execution.md R67). -/
def Cfg.nparOk (c : Cfg) : Bool := 1 ≤ c.nparEff && c.nparEff ≤ 63

/-- `block_ok`, the check of RS_ENC, RS_SYN, RS_CHIEN and RS_DEC (40_command_execution.md R67). -/
def Cfg.blockOk (c : Cfg) : Bool := c.nparOk && 1 ≤ c.kEff && c.kEff + c.nparEff ≤ 64

/-- An operand is an element of the field: below 16 in GF(16), any byte in GF(256) (41_galois_field.md R81). -/
def isElement : GField → Byte → Bool
  | .gf256, _ => true
  | .gf16, a => a < 16

/-- A buffer's contents (10_state.md R25). -/
def State.buf (s : State) : Buffer → Poly
  | .blk => s.blk
  | .syn => s.syn
  | .sigma => s.sigma
  | .sderiv => s.sderiv
  | .omega => s.omega
  | .gen => s.gen

/-- The state with a buffer's contents replaced (10_state.md R25). -/
def State.setBuf (s : State) (b : Buffer) (p : Poly) : State :=
  match b with
  | .blk => { s with blk := p }
  | .syn => { s with syn := p }
  | .sigma => { s with sigma := p }
  | .sderiv => { s with sderiv := p }
  | .omega => { s with omega := p }
  | .gen => { s with gen := p }

/-- The offset where a buffer's window starts (10_state.md R14, R25). -/
def Buffer.base : Buffer → Nat
  | .blk => 0x100
  | .syn => 0x140
  | .sigma => 0x180
  | .sderiv => 0x1C0
  | .omega => 0x200
  | .gen => 0x240

/-- The buffer a buffer-window offset lies in, by 64-byte block from 0x100 up (10_state.md R14). -/
def bufferAt (off : Nat) : Buffer :=
  match (off - 0x100) / 64 with
  | 0 => .blk
  | 1 => .syn
  | 2 => .sigma
  | 3 => .sderiv
  | 4 => .omega
  | _ => .gen

/-- What the word at an aligned offset is (10_state.md R14). -/
def targetOf (off : Offset) : Target :=
  let o := off.toNat
  if o = 0x000 then .id
  else if o = 0x004 then .caps
  else if o = 0x008 then .ctrl
  else if o = 0x00C then .status
  else if o = 0x010 then .cmd
  else if o = 0x014 then .cfg
  else if o = 0x018 then .result
  else if o = 0x01C then .rsInfo
  else if 0x100 ≤ o && o < 0x280 then .buffer (bufferAt o) (Fin.ofNat 16 (o / 4))
  else .unmapped

/-- Group B of the register map: blocked while BUSY (10_state.md R14, 20_memory.md R43). -/
def Target.groupB : Target → Bool
  | .cfg | .result | .rsInfo | .buffer .. => true
  | .id | .caps | .ctrl | .status | .cmd | .unmapped => false

/-- The access's byte offset. -/
def Access.off : Access → Offset
  | .read _ off => off
  | .write _ off _ => off

/-- The access's width. -/
def Access.width : Access → Width
  | .read w _ => w
  | .write w _ _ => w

/-- What a refused, blocked or ignored access answers: 0 for a read, no data for a write (20_memory.md R38, R43). -/
def Access.zeroData : Access → Option Word
  | .read .. => some 0
  | .write .. => none

/-- The one access the port supports: 32 bits at a multiple of 4 (20_memory.md R37, R38). -/
def Access.supported (a : Access) : Bool := a.width == .word && a.off.toNat % 4 == 0

/-- The window offset of a host bus address, if the address is the engine's (20_memory.md R35, R36). -/
def windowOffset (addr : Nat) : Option Offset :=
  if Config.engineBase ≤ addr && addr < Config.engineBase + Config.windowBytes then
    some (.ofNat 10 (addr - Config.engineBase))
  else none

end Sys2Proof.Machine
end

