-- ==== Sys2Proof/Machine/Polynomial.lean ====
section
/-! DEFINITION. Loops and the 64-coefficient buffers as polynomials: indexed reads and writes, and the datapath
functions `lutdiv`, `poly_eval` and `poly_add` (00_scope.md R10, R11; 41_galois_field.md R77 to R80). -/

namespace Sys2Proof.Machine

/-- `for i in 0..<n: body`, ascending (00_scope.md R10). -/
def forUp {σ : Type} : Nat → (Nat → σ → σ) → σ → σ
  | 0, _, s => s
  | n + 1, body, s => body n (forUp n body s)

/-- `P[i]` (00_scope.md R10). An index past 63 never occurs in a command; here it reads 0. -/
def coeff (p : Poly) (i : Nat) : Byte := p[i]?.getD 0

/-- `P[i] <- v` (00_scope.md R10). An index past 63 never occurs in a command; here it writes nothing. -/
def setCoeff (p : Poly) (i : Nat) (v : Byte) : Poly := p.setIfInBounds i v

/-- `P[0..63] <- 0`. -/
def zeroPoly : Poly := Vector.replicate 64 0

/-- The polynomial 1: `P[0] <- 1`, the rest 0. -/
def onePoly : Poly := setCoeff zeroPoly 0 1

/-- The order p of a field's multiplicative group (41_galois_field.md R73, R75). -/
def fieldOrder : GField → Nat
  | .gf256 => 255
  | .gf16 => 15

/-- The field's exp table (41_galois_field.md R77). -/
def fieldExp : GField → Nat → Byte
  | .gf256 => exp256
  | .gf16 => exp16

/-- The field's log table (41_galois_field.md R77). -/
def fieldLog : GField → Byte → Nat
  | .gf256 => log256
  | .gf16 => log16

/-- `gf_mul(a, b)` (41_galois_field.md R77). -/
def gfMul (f : GField) (a b : Byte) : Byte :=
  if a = 0 ∨ b = 0 then 0 else fieldExp f ((fieldLog f a + fieldLog f b) % fieldOrder f)

/-- `gf_div(a, b)`, b ≠ 0 required (41_galois_field.md R77). -/
def gfDiv (f : GField) (a b : Byte) : Byte :=
  if a = 0 then 0 else fieldExp f ((fieldLog f a + fieldOrder f - fieldLog f b) % fieldOrder f)

/-- `gf_exp(e)` (41_galois_field.md R77). -/
def gfExp (f : GField) (e : Nat) : Byte := fieldExp f (e % fieldOrder f)

/-- `gf_log(a)`, a ≠ 0 required (41_galois_field.md R77). -/
def gfLog (f : GField) (a : Byte) : Nat := fieldLog f a

/-- `lutdiv(a, b)`: the quotient by table without the zero guard, reading the sentinel LOG[0] = 0
(41_galois_field.md R78). -/
def lutDiv (a b : Byte) : Byte := exp256 ((255 - log256 b + log256 a) % 255)

/-- `poly_eval(P, x)` (41_galois_field.md R79). -/
def polyEval (p : Poly) (x : Byte) : Byte :=
  if x = 0 then coeff p 0
  else
    forUp 64 (fun k acc =>
      if coeff p k ≠ 0 then acc ^^^ exp256 ((log256 (coeff p k) + log256 x * k) % 255) else acc) 0

/-- `poly_add(D, S, c, shift)`: adds `c·S·x^shift` into `D`, dropping terms past degree 63 (41_galois_field.md R80). -/
def polyAdd (d src : Poly) (c : Byte) (shift : Nat) : Poly :=
  if c = 0 then d
  else
    forUp 64 (fun i d =>
      let q := i + shift
      if q ≤ 63 ∧ coeff src i ≠ 0 then
        setCoeff d q (coeff d q ^^^ exp256 ((log256 (coeff src i) + log256 c) % 255))
      else d) d

end Sys2Proof.Machine
end

