-- ==== Sys2Proof/Machine/Ops.lean ====
section
/-! DEFINITION. The shared operations on the state: accepting and completing a command (40_command_execution.md R62 to
R64), resets (70_reset_and_hazards.md R128, R129), reading and writing the words of the window, and the host port
(20_memory.md R37 to R46). Completion with an error code is this engine's whole "exception" (60_exceptions.md R118);
there is no return from it (R119), only the W1C of DONE (`writeStatus`). -/

namespace Sys2Proof.Machine

/-- Acceptance of a command word (40_command_execution.md R62). -/
def accept (w : Word) (s : State) : State :=
  { s with
    cmdLast := w
    done := false
    errcode := .ok
    lastOp := w.extractLsb' 0 8
    phase := .busy
    busyCycles := 0 }

/-- The completion of a command with an error code: ERRCODE, DONE and the phase (40_command_execution.md R64). -/
def complete (err : ErrCode) (s : State) : State :=
  { s with errcode := err, done := true, phase := .idle, busyCycles := 0 }

/-- A command's whole completion step, from the code and the state its `run(c)` gives (40_command_execution.md R64,
R66). -/
def finish (r : ErrCode × State) : Host.Outcome State Fault Refusal := .next (complete r.1 r.2)

/-- The reset state of 10_state.md R34, with what is outside the engine kept: the reset input's level, the last bus
response and the events to come (70_reset_and_hazards.md R129, R130). -/
def resetEngine (s : State) : State :=
  { State.reset with resetPin := s.resetPin, response := s.response, agenda := s.agenda }

/-- The platform drives the reset input (70_reset_and_hazards.md R128, R130). Asserting an asynchronous input resets the
engine at once and aborts a running command; a synchronous one waits for a clock cycle (`clockCycle`). When the input is
released the state is the reset state. The length of the pulse and the moment of the reset are the model's choices (log
entries 5, 6, 24). -/
def driveResetInput (asserted : Bool) (s : State) : State :=
  if asserted then
    if Config.resetSynchronous then { s with resetPin := true } else resetEngine { s with resetPin := true }
  else if s.resetPin then resetEngine { s with resetPin := false }
  else s

/-- The bus word of a buffer, little-endian (20_memory.md R39). -/
def bufferWord (p : Poly) (w : Fin 16) : Word :=
  let i := 4 * w.val
  coeff p (i + 3) ++ (coeff p (i + 2) ++ (coeff p (i + 1) ++ coeff p i))

/-- A bus word written into a buffer, all four bytes at once (20_memory.md R39, R40). -/
def writeBufferWord (p : Poly) (w : Fin 16) (v : Word) : Poly :=
  let i := 4 * w.val
  setCoeff (setCoeff (setCoeff (setCoeff p i (v.extractLsb' 0 8)) (i + 1) (v.extractLsb' 8 8))
    (i + 2) (v.extractLsb' 16 8)) (i + 3) (v.extractLsb' 24 8)

/-- The value an unblocked read of a target returns (10_state.md R14 to R25, 20_memory.md R39, R41). -/
def readTarget (t : Target) (s : State) : Word :=
  match t with
  | .id => Config.idValue
  | .caps => Config.capsValue
  | .ctrl => ctrlWord s
  | .status => statusWord s
  | .cmd => s.cmdLast
  | .cfg => cfgWord s.cfg
  | .result => s.result
  | .rsInfo => rsInfoWord s.rsInfo
  | .buffer b w => bufferWord (s.buf b) w
  | .unmapped => 0

/-- A write of `v` to CTRL: the soft reset, or IE (10_state.md R17, 70_reset_and_hazards.md R129). -/
def writeCtrl (v : Word) (s : State) : State :=
  if v.getLsbD 1 then resetEngine s else { s with ie := v.getLsbD 0 }

/-- A write of `v` to CMD: accepted when IDLE, dropped with CMD_OVF when BUSY (40_command_execution.md R62, R63). -/
def writeCmd (v : Word) (s : State) : State :=
  if s.phase = .busy then { s with cmdOvf := true } else accept v s

/-- The effect of an unblocked write of `v` to a target (10_state.md R14, 20_memory.md R40 to R42, R44). -/
def writeTarget (t : Target) (v : Word) (s : State) : State :=
  match t with
  | .ctrl => writeCtrl v s
  | .status => writeStatus v s
  | .cmd => writeCmd v s
  | .cfg => { s with cfg := cfgOfWord v }
  | .buffer b w => s.setBuf b (writeBufferWord (s.buf b) w v)
  | .id | .caps | .result | .rsInfo | .unmapped => s

/-- A group-B access while BUSY is blocked (20_memory.md R43). -/
def Target.blocked (t : Target) (s : State) : Bool := t.groupB && s.busyFlag

/-- The port's answer to the access it has just handled. -/
def respond (error : Bool) (data : Option Word) (s : State) : State :=
  { s with response := some ⟨error, data⟩ }

/-- An access the port supports, outside a hardware reset (20_memory.md R37 to R44). -/
def busAccess (a : Access) (s : State) : State :=
  if (targetOf a.off).blocked s then respond false a.zeroData { s with busyAcc := true }
  else
    match a with
    | .read _ off => respond false (some (readTarget (targetOf off) s)) s
    | .write _ off v => respond false none (writeTarget (targetOf off) v s)

/-- The host port handles one access, in full, before the next (20_memory.md R38, R45, R46). While the hardware reset
is asserted reads return 0, writes are dropped and nothing is an error (70_reset_and_hazards.md R128). -/
def portAccess (a : Access) (s : State) : State :=
  if s.resetPin then respond false a.zeroData s
  else if a.supported then busAccess a s
  else respond true a.zeroData s

end Sys2Proof.Machine
end

