-- ==== Sys2Proof/Machine/Control.lean ====
section
/-! DEFINITION. NOP (40_command_execution.md R72). -/

namespace Sys2Proof.Machine

/-- NOP: completes with no error and touches nothing else (40_command_execution.md R72). -/
def execNop (s : State) : Host.Outcome State Fault Refusal := finish (.ok, s)

end Sys2Proof.Machine
end

