-- ==== Sys2Proof/Machine/Format.lean ====
section
/-! DEFINITION. The format-information codec: FMT_ENC, FMT_DEC and SYM_LOOKUP (44_format_bch.md R103 to R111). -/

namespace Sys2Proof.Machine

/-- `bch_rem(p)`: the remainder of `payload5·x^10` by the generator 0x537, bit by bit from 14 down to 10
(44_format_bch.md R105). -/
def bchRem (p : BitVec 5) : BitVec 10 :=
  let v : BitVec 15 := forUp 5 (fun t v => if v.getLsbD (14 - t) then v ^^^ (0x537#15 <<< (4 - t)) else v) (p ++ 0#10)
  v.extractLsb' 0 10

/-- `encode15(p)` (44_format_bch.md R106). -/
def encode15 (p : BitVec 5) : BitVec 15 := (p ++ bchRem p) ^^^ 0x4445

/-- `popcount(v)` (00_scope.md R9). -/
def popcount {w : Nat} (v : BitVec w) : Nat := forUp w (fun i n => if v.getLsbD i then n + 1 else n) 0

/-- The best candidate of the nearest-codeword search so far (44_format_bch.md R110). -/
structure Candidate where
  best : Nat
  dist : Nat
  ties : Nat
  deriving DecidableEq, Repr

/-- The search step at payload p (44_format_bch.md R110). -/
def searchStep (obs : BitVec 15) (p : Nat) (c : Candidate) : Candidate :=
  let d := popcount (encode15 (.ofNat 5 p) ^^^ obs)
  if d < c.dist then ⟨p, d, 1⟩
  else if d = c.dist then { c with ties := c.ties + 1 }
  else c

/-- The nearest-codeword search over payloads 0..31, ascending (44_format_bch.md R110). -/
def nearest (obs : BitVec 15) : Candidate := forUp 32 (fun p c => searchStep obs p c) ⟨0, 16, 0⟩

/-- The (version, ECC code) of a symbol number (44_format_bch.md R103). -/
def symEntry (sym : Nat) : BitVec 3 × BitVec 3 := symTable.getD sym (0, 0)

/-- RESULT as FMT_DEC writes it (10_state.md R23, 44_format_bch.md R110). -/
def fmtDecResult (c : Candidate) : Word :=
  let (ver, ecc) := symEntry (c.best / 4)
  (BitVec.ofNat 32 c.ties <<< 24) ||| (BitVec.ofNat 32 c.dist <<< 16) ||| (ecc.setWidth 32 <<< 12) |||
    (ver.setWidth 32 <<< 8) ||| BitVec.ofNat 32 c.best

/-- The symbol number of a (version, ECC code) pair, if it has one (44_format_bch.md R103, R111). -/
def symbolNumber (version ecc : BitVec 3) : Option Nat := symTable.findIdx? (· == (version, ecc))

/-- RESULT as SYM_LOOKUP writes it (10_state.md R23, 44_format_bch.md R111). -/
def symLookupResult (sym : Nat) : Word :=
  (BitVec.ofNat 32 (nparTable (.ofNat 3 sym)) <<< 8) ||| BitVec.ofNat 32 sym

/-- run(FMT_ENC) (44_format_bch.md R109). -/
def runFmtEnc (payload : BitVec 5) (s : State) : ErrCode × State :=
  (.ok, { s with result := (encode15 payload).setWidth 32 })

/-- run(FMT_DEC): RESULT is written on failure too (44_format_bch.md R110). -/
def runFmtDec (obs : BitVec 15) (s : State) : ErrCode × State :=
  let c := nearest obs
  let err := if 4 ≤ c.dist then .fmtTooManyErrors else if 1 < c.ties then .fmtAmbiguous else .ok
  (err, { s with result := fmtDecResult c })

/-- run(SYM_LOOKUP) (44_format_bch.md R111). -/
def runSymLookup (version ecc : BitVec 3) (s : State) : ErrCode × State :=
  match symbolNumber version ecc with
  | some sym => (.ok, { s with result := symLookupResult sym })
  | none => (.badCombination, s)

/-- FMT_ENC (44_format_bch.md R109). -/
def execFmtEnc (payload : BitVec 5) (s : State) : Host.Outcome State Fault Refusal := finish (runFmtEnc payload s)

/-- FMT_DEC (44_format_bch.md R110). -/
def execFmtDec (obs : BitVec 15) (s : State) : Host.Outcome State Fault Refusal := finish (runFmtDec obs s)

/-- SYM_LOOKUP (44_format_bch.md R111). -/
def execSymLookup (version ecc : BitVec 3) (s : State) : Host.Outcome State Fault Refusal :=
  finish (runSymLookup version ecc s)

end Sys2Proof.Machine
end

