-- ==== Sys2Proof/Machine/GaloisField.lean ====
section
/-! DEFINITION. The five GF commands (41_galois_field.md R81 to R86). -/

namespace Sys2Proof.Machine

/-- The state with a byte result: RESULT <- zext_32(v) (10_state.md R23). -/
def setByteResult (v : Byte) (s : State) : State := { s with result := v.setWidth 32 }

/-- run(GF_ADD) (41_galois_field.md R82). -/
def runGfAdd (f : GField) (a b : Byte) (s : State) : ErrCode × State :=
  if isElement f a && isElement f b then (.ok, setByteResult (a ^^^ b) s) else (.badOperand, s)

/-- run(GF_MUL) (41_galois_field.md R83). -/
def runGfMul (f : GField) (a b : Byte) (s : State) : ErrCode × State :=
  if isElement f a && isElement f b then (.ok, setByteResult (gfMul f a b) s) else (.badOperand, s)

/-- run(GF_DIV): the operand check comes before the divisor's (41_galois_field.md R84, 60_exceptions.md R116). -/
def runGfDiv (f : GField) (a b : Byte) (s : State) : ErrCode × State :=
  if isElement f a && isElement f b then
    if b = 0 then (.gfDiv0, s) else (.ok, setByteResult (gfDiv f a b) s)
  else (.badOperand, s)

/-- run(GF_EXP): A is an exponent and is not checked (41_galois_field.md R81, R85). -/
def runGfExp (f : GField) (a : Byte) (s : State) : ErrCode × State :=
  (.ok, setByteResult (gfExp f a.toNat) s)

/-- run(GF_LOG): the operand check comes before the zero check (41_galois_field.md R86, 60_exceptions.md R116). -/
def runGfLog (f : GField) (a : Byte) (s : State) : ErrCode × State :=
  if isElement f a then
    if a = 0 then (.gfLog0, s) else (.ok, setByteResult (.ofNat 8 (gfLog f a)) s)
  else (.badOperand, s)

/-- GF_ADD (41_galois_field.md R82). -/
def execGfAdd (f : GField) (a b : Byte) (s : State) : Host.Outcome State Fault Refusal := finish (runGfAdd f a b s)

/-- GF_MUL (41_galois_field.md R83). -/
def execGfMul (f : GField) (a b : Byte) (s : State) : Host.Outcome State Fault Refusal := finish (runGfMul f a b s)

/-- GF_DIV (41_galois_field.md R84). -/
def execGfDiv (f : GField) (a b : Byte) (s : State) : Host.Outcome State Fault Refusal := finish (runGfDiv f a b s)

/-- GF_EXP (41_galois_field.md R85). -/
def execGfExp (f : GField) (a : Byte) (s : State) : Host.Outcome State Fault Refusal := finish (runGfExp f a s)

/-- GF_LOG (41_galois_field.md R86). -/
def execGfLog (f : GField) (a : Byte) (s : State) : Host.Outcome State Fault Refusal := finish (runGfLog f a s)

end Sys2Proof.Machine
end

