-- ==== Sys2Proof/Machine/RsEncode.lean ====
section
/-! DEFINITION. The Reed-Solomon encoder: RS_GEN and RS_ENC (42_rs_encode.md R87 to R92). -/

namespace Sys2Proof.Machine

/-- An RS command's parameter check in front of its body: BAD_PARAM with nothing written
(40_command_execution.md R66, R67). -/
def withParams (ok : Bool) (body : State → ErrCode × State) (s : State) : ErrCode × State :=
  if ok then body s else (.badParam, s)

/-- RS_INFO.NPAR_USED <- n (10_state.md R24). -/
def setNparUsed (n : Nat) (s : State) : State := { s with rsInfo := { s.rsInfo with nparUsed := .ofNat 6 n } }

/-- `g(x) <- (x + r)·g(x)`, in place for k = n down to 0 (42_rs_encode.md R88). -/
def timesRoot (n : Nat) (r : Byte) (g : Poly) : Poly :=
  forUp (n + 1) (fun t g =>
    let k := n - t
    setCoeff g k ((if 1 ≤ k then coeff g (k - 1) else 0) ^^^ gfMul .gf256 r (coeff g k))) g

/-- The generator polynomial of parity length n (42_rs_encode.md R87, R88). -/
def generator (n : Nat) : Poly := forUp n (fun i g => timesRoot n (exp256 i) g) onePoly

/-- One data byte's step of the long division: shift the remainder and add the generator times the factor
(42_rs_encode.md R90). -/
def remainderStep (g : Poly) (n : Nat) (data : Byte) (rem : Poly) : Poly :=
  let factor := data ^^^ coeff rem 0
  let shifted := setCoeff (forUp (n - 1) (fun j r => setCoeff r j (coeff r (j + 1))) rem) (n - 1) 0
  forUp n (fun j r => setCoeff r j (coeff r j ^^^ gfMul .gf256 (coeff g (n - 1 - j)) factor)) shifted

/-- The remainder of the data bytes BLK[0..k-1]: `rem[j]` is the coefficient of `x^(n-1-j)` (42_rs_encode.md R90). -/
def remainder (g blk : Poly) (k n : Nat) : Poly :=
  forUp k (fun i rem => remainderStep g n (coeff blk i) rem) zeroPoly

/-- The parity written behind the data: `BLK[k+j] <- rem[j]` (42_rs_encode.md R90). -/
def withParity (blk rem : Poly) (k n : Nat) : Poly := forUp n (fun j b => setCoeff b (k + j) (coeff rem j)) blk

/-- The body of run(RS_GEN) (42_rs_encode.md R88). -/
def genBody (s : State) : State := setNparUsed s.cfg.nparEff { s with gen := generator s.cfg.nparEff }

/-- run(RS_GEN) (42_rs_encode.md R88). -/
def runRsGen (s : State) : ErrCode × State := withParams s.cfg.nparOk (fun s => (.ok, genBody s)) s

/-- run(RS_ENC) (42_rs_encode.md R90). -/
def runRsEnc (s : State) : ErrCode × State :=
  withParams s.cfg.blockOk (fun s =>
    let s := genBody s
    let rem := remainder s.gen s.blk s.cfg.kEff s.cfg.nparEff
    (.ok, { s with blk := withParity s.blk rem s.cfg.kEff s.cfg.nparEff })) s

/-- RS_GEN (42_rs_encode.md R88). -/
def execRsGen (s : State) : Host.Outcome State Fault Refusal := finish (runRsGen s)

/-- RS_ENC (42_rs_encode.md R90). -/
def execRsEnc (s : State) : Host.Outcome State Fault Refusal := finish (runRsEnc s)

end Sys2Proof.Machine
end

