-- ==== Sys2Proof/Machine/RsDecode.lean ====
section
/-! DEFINITION. The Reed-Solomon decoder: the shared steps (43_rs_decode.md R93 to R96) and RS_SYN, RS_BM, RS_OMEGA,
RS_CHIEN and RS_DEC (R97 to R101). -/

namespace Sys2Proof.Machine

/-- S[i] of a block of length nb (43_rs_decode.md R93). -/
def syndromeAt (blk : Poly) (nb i : Nat) : Byte :=
  forUp nb (fun j acc =>
    let c := coeff blk (nb - 1 - j)
    if c ≠ 0 then acc ^^^ exp256 ((log256 c + i * j) % 255) else acc) 0

/-- The syndromes S[0..n-1], the rest 0 (43_rs_decode.md R93). -/
def syndromes (blk : Poly) (nb n : Nat) : Poly := forUp n (fun i p => setCoeff p i (syndromeAt blk nb i)) zeroPoly

/-- `S[i] != 0 for some i in 0..<n` (43_rs_decode.md R93). -/
def anyNonzero (p : Poly) (n : Nat) : Bool := (List.range n).any (fun i => coeff p i != 0)

/-- The working values of Berlekamp-Massey (43_rs_decode.md R94). -/
structure BmState where
  /-- the current locator C -/
  c : Poly
  /-- the previous locator B -/
  bPoly : Poly
  l : Nat
  m : Nat
  /-- the discrepancy b of the last length change -/
  b : Byte
  deriving DecidableEq, Repr

/-- The discrepancy d of step q (43_rs_decode.md R94). -/
def discrepancy (syn c : Poly) (l q : Nat) : Byte :=
  forUp l (fun t d =>
    let i := t + 1
    if coeff c i ≠ 0 ∧ coeff syn (q - i) ≠ 0 then
      d ^^^ exp256 ((log256 (coeff c i) + log256 (coeff syn (q - i))) % 255)
    else d) (coeff syn q)

/-- Step q of Berlekamp-Massey (43_rs_decode.md R94). -/
def bmStep (syn : Poly) (q : Nat) (st : BmState) : BmState :=
  let d := discrepancy syn st.c st.l q
  let mult := lutDiv d st.b
  if d = 0 then { st with m := st.m + 1 }
  else if 2 * st.l ≤ q then
    { c := polyAdd st.c st.bPoly mult st.m, bPoly := st.c, l := q + 1 - st.l, m := 1, b := d }
  else { st with c := polyAdd st.c st.bPoly mult st.m, m := st.m + 1 }

/-- `bm(s, Nn)`: the error locator and L (43_rs_decode.md R94). -/
def berlekampMassey (syn : Poly) (n : Nat) : Poly × Nat :=
  let st := forUp n (fun q st => bmStep syn q st) { c := onePoly, bPoly := onePoly, l := 0, m := 1, b := 1 }
  (st.c, st.l)

/-- The formal derivative of the locator (43_rs_decode.md R95). -/
def derivative (sigma : Poly) : Poly :=
  forUp 64 (fun i p => setCoeff p i (if i % 2 = 0 ∧ i ≤ 62 then coeff sigma (i + 1) else 0)) zeroPoly

/-- The error evaluator (43_rs_decode.md R95). -/
def evaluator (sigma syn : Poly) (n : Nat) : Poly :=
  let mlen := n - 1
  forUp mlen (fun i o =>
    let a := coeff sigma i
    if a ≠ 0 then
      forUp (mlen - i) (fun j o =>
        if coeff syn (j + 1) ≠ 0 then
          setCoeff o (i + j) (coeff o (i + j) ^^^ gfMul .gf256 a (coeff syn (j + 1)))
        else o) o
    else o) zeroPoly

/-- The field element of the position of degree i, α^(−i) (43_rs_decode.md R96). -/
def positionInverse (i : Nat) : Byte := exp256 ((255 - i) % 255)

/-- The error magnitude at an element, by Forney's formula (43_rs_decode.md R96). -/
def magnitude (sderiv omega : Poly) (xinv : Byte) : Byte := lutDiv (polyEval omega xinv) (polyEval sderiv xinv)

/-- `chien_forney(Nb)`: the corrected block and the count (43_rs_decode.md R96). -/
def chienForney (sigma sderiv omega blk : Poly) (nb : Nat) : Poly × Nat :=
  forUp nb (fun i (b, cnt) =>
    let xinv := positionInverse i
    if polyEval sigma xinv = 0 then
      (setCoeff b (nb - 1 - i) (coeff b (nb - 1 - i) ^^^ magnitude sderiv omega xinv), cnt + 1)
    else (b, cnt)) (blk, 0)

/-- RS_INFO.L <- l (10_state.md R24). -/
def setL (l : Nat) (s : State) : State := { s with rsInfo := { s.rsInfo with l := .ofNat 7 l } }

/-- RS_INFO.NCORR <- c (10_state.md R24). -/
def setNcorr (c : Nat) (s : State) : State := { s with rsInfo := { s.rsInfo with ncorr := .ofNat 7 c } }

/-- RS_INFO.SYN_NZ <- nz (10_state.md R24). -/
def setSynNz (nz : Bool) (s : State) : State := { s with rsInfo := { s.rsInfo with synNz := nz } }

/-- The syndrome step: SYN and SYN_NZ of the current block (43_rs_decode.md R93, R97). -/
def synBody (s : State) : State :=
  let p := syndromes s.blk s.cfg.nEff s.cfg.nparEff
  setSynNz (anyNonzero p s.cfg.nparEff) { s with syn := p }

/-- The Berlekamp-Massey step: SIGMA and L (43_rs_decode.md R94, R98). -/
def bmBody (s : State) : State :=
  let r := berlekampMassey s.syn s.cfg.nparEff
  setL r.2 { s with sigma := r.1 }

/-- The derivative and evaluator step: SDERIV and OMEGA (43_rs_decode.md R95, R99). -/
def omegaBody (s : State) : State :=
  { s with sderiv := derivative s.sigma, omega := evaluator s.sigma s.syn s.cfg.nparEff }

/-- The Chien and Forney step: BLK and NCORR (43_rs_decode.md R96, R100). -/
def chienBody (s : State) : State :=
  let r := chienForney s.sigma s.sderiv s.omega s.blk s.cfg.nEff
  setNcorr r.2 { s with blk := r.1 }

/-- What RS_DEC writes when the block is clean (43_rs_decode.md R101, early exit). -/
def cleanBody (s : State) : State :=
  setNcorr 0 (setL 0 { s with sigma := onePoly, sderiv := zeroPoly, omega := zeroPoly })

/-- run(RS_SYN) (43_rs_decode.md R97). -/
def runRsSyn (s : State) : ErrCode × State :=
  withParams s.cfg.blockOk (fun s => (.ok, setNparUsed s.cfg.nparEff (synBody s))) s

/-- run(RS_BM) (43_rs_decode.md R98). -/
def runRsBm (s : State) : ErrCode × State :=
  withParams s.cfg.nparOk (fun s => (.ok, setNparUsed s.cfg.nparEff (bmBody s))) s

/-- run(RS_OMEGA) (43_rs_decode.md R99). -/
def runRsOmega (s : State) : ErrCode × State :=
  withParams s.cfg.nparOk (fun s => (.ok, setNparUsed s.cfg.nparEff (omegaBody s))) s

/-- run(RS_CHIEN) (43_rs_decode.md R100). -/
def runRsChien (s : State) : ErrCode × State :=
  withParams s.cfg.blockOk (fun s => (.ok, setNparUsed s.cfg.nparEff (chienBody s))) s

/-- run(RS_DEC): RS_UNCORRECTABLE leaves everything written before it (43_rs_decode.md R101). -/
def runRsDec (s : State) : ErrCode × State :=
  withParams s.cfg.blockOk (fun s =>
    let s := synBody (setNparUsed s.cfg.nparEff s)
    if s.rsInfo.synNz then
      let s := synBody (chienBody (omegaBody (bmBody s)))
      (if s.rsInfo.synNz then .rsUncorrectable else .ok, s)
    else (.ok, cleanBody s)) s

/-- RS_SYN (43_rs_decode.md R97). -/
def execRsSyn (s : State) : Host.Outcome State Fault Refusal := finish (runRsSyn s)

/-- RS_BM (43_rs_decode.md R98). -/
def execRsBm (s : State) : Host.Outcome State Fault Refusal := finish (runRsBm s)

/-- RS_OMEGA (43_rs_decode.md R99). -/
def execRsOmega (s : State) : Host.Outcome State Fault Refusal := finish (runRsOmega s)

/-- RS_CHIEN (43_rs_decode.md R100). -/
def execRsChien (s : State) : Host.Outcome State Fault Refusal := finish (runRsChien s)

/-- RS_DEC (43_rs_decode.md R101). -/
def execRsDec (s : State) : Host.Outcome State Fault Refusal := finish (runRsDec s)

end Sys2Proof.Machine
end

