-- ==== Sys2Proof/Machine/Dispatch.lean ====
section
/-! DEFINITION. The dispatch of a decoded command to its meaning (40_command_execution.md R66), one arm per command. -/

namespace Sys2Proof.Machine

def exec (i : Instr) (s : State) : Host.Outcome State Fault Refusal :=
  match i with
  | .nop => Sys2Proof.Machine.execNop s
  | .rsGen => Sys2Proof.Machine.execRsGen s
  | .rsEnc => Sys2Proof.Machine.execRsEnc s
  | .rsSyn => Sys2Proof.Machine.execRsSyn s
  | .rsBm => Sys2Proof.Machine.execRsBm s
  | .rsOmega => Sys2Proof.Machine.execRsOmega s
  | .rsChien => Sys2Proof.Machine.execRsChien s
  | .rsDec => Sys2Proof.Machine.execRsDec s
  | .gfAdd f a b => Sys2Proof.Machine.execGfAdd f a b s
  | .gfMul f a b => Sys2Proof.Machine.execGfMul f a b s
  | .gfDiv f a b => Sys2Proof.Machine.execGfDiv f a b s
  | .gfExp f a => Sys2Proof.Machine.execGfExp f a s
  | .gfLog f a => Sys2Proof.Machine.execGfLog f a s
  | .fmtEnc payload => Sys2Proof.Machine.execFmtEnc payload s
  | .fmtDec obs => Sys2Proof.Machine.execFmtDec obs s
  | .symLookup version ecc => Sys2Proof.Machine.execSymLookup version ecc s

end Sys2Proof.Machine
end

