-- ==== Sys2Proof/Machine/Sequencer.lean ====
section
/-! DEFINITION. The sequencer (40_command_execution.md R62 to R66): running the command CMD_LAST, the clock cycles it
takes, and what each event does to the engine. -/

namespace Sys2Proof.Machine

/-- The completion step of the command CMD_LAST (40_command_execution.md R64, R66): its meaning, or ILLEGAL_CMD with
nothing else written where the word decodes to none (30_encoding.md R57). -/
def runCommand (s : State) : Host.Outcome State Fault Refusal :=
  match decode s.cmdLast with
  | .command i => exec i s
  | .illegal _ => finish (.illegalCmd, s)

/-- The running command has to complete in this cycle: it is its CMD_LATENCY(op)-th (40_command_execution.md R64). -/
def mustFinish (s : State) : Bool := Config.cmdLatency (opField s.cmdLast) ≤ s.busyCycles + 1

/-- One clock cycle. Held in reset, the engine is in the reset state after it, which a synchronous input reaches here
(70_reset_and_hazards.md R128, R130). IDLE, it keeps all state (60_exceptions.md R127). BUSY, the command
completes if the cycle's choice or CMD_LATENCY says so, and else has had one cycle more (40_command_execution.md R64). -/
def clockCycle (fin : Bool) (s : State) : Host.Outcome State Fault Refusal :=
  if s.resetPin then .next (resetEngine s)
  else if s.phase = .idle then .next s
  else if fin || mustFinish s then runCommand s
  else .next { s with busyCycles := s.busyCycles + 1 }

/-- The effect of one event (20_memory.md R46, 40_command_execution.md R64, 60_exceptions.md R127,
70_reset_and_hazards.md R128). -/
def handleEvent (e : Event) (s : State) : Host.Outcome State Fault Refusal :=
  match e with
  | .access a => .next (portAccess a s)
  | .cycle fin => clockCycle fin s
  | .resetInput asserted => .next (driveResetInput asserted s)
  | .powerCycle => .next (resetEngine s)

/-- The events that put a word before the sequencer as its next command: nothing when no event is pending, else a
completing cycle in front of those pending. -/
def agendaForNext (agenda : List Event) : List Event :=
  match agenda with
  | [] => []
  | e :: rest => .cycle true :: e :: rest

end Sys2Proof.Machine
end

