-- ==== Sys2Proof/Machine/Step.lean ====
section
/-! DEFINITION. One step of the machine, and how a command word is placed where the sequencer runs it next. -/

namespace Sys2Proof.Machine

/-- One step: the next event of the agenda happens; when none is pending a clock cycle passes, in which a running
command completes (40_command_execution.md R64). -/
def step (s : State) : Host.Outcome State Fault Refusal :=
  match s.agenda with
  | [] => clockCycle true s
  | e :: rest => handleEvent e { s with agenda := rest }

/-- `s` with the command word `w` (its bits from `nbits` up 0) accepted as the running command, so that the very next
step is its completion step (40_command_execution.md R62, R64). -/
def State.withFetchWord (s : State) (nbits w : Nat) : State :=
  accept (.ofNat 32 (w % 2 ^ nbits)) { s with resetPin := false, agenda := agendaForNext s.agenda }

end Sys2Proof.Machine
end

