-- ==== Sys2Proof/Machine/HostNotation.lean ====
section
/-! DEFINITION. The host-program notation (30_encoding.md R60): what each line is as an access on the port. `wait` is the
host's own loop over `hostPoll`; it is over when a poll reads BUSY = 0. -/

namespace Sys2Proof.Machine

/-- `write OFF, V` -/
def hostWrite (off : Offset) (v : Word) : Access := .write .word off v

/-- `read OFF` -/
def hostRead (off : Offset) : Access := .read .word off

/-- `issue <command>` -/
def hostIssue (i : Instr) : Access := hostWrite 0x010 (encode i)

/-- `cfg K, NPAR` -/
def hostCfg (k npar : Word) : Access := hostWrite 0x014 ((npar <<< 8) ||| k)

/-- `cfgsym K, SYM` -/
def hostCfgSym (k sym : Word) : Access := hostWrite 0x014 ((1#32 <<< 19) ||| (sym <<< 16) ||| k)

/-- `ack` -/
def hostAck : Access := hostWrite 0x00C 0x2

/-- `wrblk P, i, b0 b1 b2 b3` -/
def hostWrblk (p : Buffer) (i : Fin 16) (b0 b1 b2 b3 : Byte) : Access :=
  hostWrite (.ofNat 10 (p.base + 4 * i.val)) (b3 ++ (b2 ++ (b1 ++ b0)))

/-- One `read 0x00C` of `wait`. -/
def hostPoll : Access := hostRead 0x00C

/-- The answer to a poll that ends `wait`: bit 0 (BUSY) reads 0. -/
def pollEnds (r : Response) : Bool :=
  match r.data with
  | some v => !v.getLsbD 0
  | none => false

end Sys2Proof.Machine
end

