-- ==== Sys2Proof/Safety.lean ====
section
/-! DEFINITION. What counts as a good run, in the terms the claims use: the states a run reaches, the invariant they
meet, the host's hazard rules as the sticky flags record them (70_reset_and_hazards.md R133), and which states look
alike to a command. -/

namespace Sys2Proof.Safety

open Sys2Proof.Machine

/-- The states reached from reset under some sequence of events (70_reset_and_hazards.md R131). -/
inductive Reachable : State → Prop where
  | start (agenda : List Event) : Reachable { State.reset with agenda := agenda }
  | step (s t : State) : Reachable s → step s = .next t → Reachable t

/-- The access is a soft reset: a 32-bit write to CTRL with SRST = 1 (70_reset_and_hazards.md R129). -/
def isSoftReset : Access → Bool
  | .write .word off v => off == 0x008 && v.getLsbD 1
  | .write .byte _ _ | .write .half _ _ | .read .. => false

/-- The event resets the engine, or may (70_reset_and_hazards.md R128, R129; 60_exceptions.md R127). -/
def isReset : Event → Bool
  | .access a => isSoftReset a
  | .cycle _ => false
  | .resetInput _ => true
  | .powerCycle => true

/-- The event is a clock cycle. -/
def isCycle : Event → Bool
  | .cycle _ => true
  | .access _ | .resetInput _ | .powerCycle => false

/-- The event that happens next: the agenda's oldest, or a completing cycle when none is pending. -/
def nextEvent (s : State) : Event := s.agenda.headD (.cycle true)

/-- The next event resets the engine, or may: a reset event, or a clock cycle while a synchronous reset input is asserted
(70_reset_and_hazards.md R128). -/
def mayReset (s : State) : Bool :=
  isReset (nextEvent s) || (isCycle (nextEvent s) && s.resetPin && Config.resetSynchronous)

/-- How many clock cycles the events hold. -/
def countCycles (es : List Event) : Nat := es.countP isCycle

/-- The host has respected the hazards so far, as far as the engine records it (70_reset_and_hazards.md R133). -/
def MisuseFree (s : State) : Prop := s.busyAcc = false ∧ s.cmdOvf = false

/-- Every assertion of the reset input among the events lasts RESET_HOLD cycles, and at least the one cycle that a
synchronous input needs (70_reset_and_hazards.md R128): `held`
is how many cycles the input has been asserted, if it is. (That RESET_HOLD is a count of cycles: log entry 24.) -/
def ResetPulsesHeld : Option Nat → List Event → Prop
  | _, [] => True
  | none, .resetInput true :: es => ResetPulsesHeld (some 0) es
  | some n, .resetInput false :: es =>
    Config.resetHold ≤ n ∧ (Config.resetSynchronous = true → 1 ≤ n) ∧ ResetPulsesHeld none es
  | some n, .cycle _ :: es => ResetPulsesHeld (some (n + 1)) es
  | h, _ :: es => ResetPulsesHeld h es

/-- The two states agree on what commands read and write: CFG, RESULT, RS_INFO and the buffers (10_state.md R26). -/
structure SameCommandState (s t : State) : Prop where
  cfg : s.cfg = t.cfg
  result : s.result = t.result
  rsInfo : s.rsInfo = t.rsInfo
  buf : ∀ b, s.buf b = t.buf b

/-- The machine's invariant: LAST_OP is the opcode of CMD_LAST; a running command has DONE = 0 and ERRCODE = 0 and is
within its latency; an asynchronous reset that is held keeps the reset state; RS_INFO's L and NCORR stay in the ranges of 10_state.md R24;
RESULT's bits [31:30], which no layout of R23 uses, are 0. -/
structure EngineInv (s : State) : Prop where
  lastOp : s.lastOp = opField s.cmdLast
  busy : s.phase = .busy → s.done = false ∧ s.errcode = .ok
  latency : s.phase = .busy → s.busyCycles < Config.cmdLatency (opField s.cmdLast)
  held : s.resetPin = true → Config.resetSynchronous = false → resetEngine s = s
  l : s.rsInfo.l.toNat ≤ 63
  ncorr : s.rsInfo.ncorr.toNat ≤ 64
  result : s.result.toNat < 2 ^ 30

end Sys2Proof.Safety
end

