-- ==== Sys2Proof/Certificates/Slice0/Obligations.lean ====
section
/-! DEFINITION. The statements for the provers. First the terms they are written in: the fields and the format
codewords straight from the spec's definitions, not from the engine's tables and loops; then one `Obligations.<Name>`
per statement of OBLIGATIONS.json. -/

namespace Sys2Proof.Claims

open Sys2Proof.Machine

/-- The state after the completion step of a command that ended with `err` and had written what `s` holds
(40_command_execution.md R64). `busyCycles` is the model's own count of the running command's cycles. -/
def completed (err : ErrCode) (s : State) : State :=
  { s with errcode := err, done := true, phase := .idle, busyCycles := 0 }

/-- The state after the port has answered an access. -/
def answered (error : Bool) (data : Option Word) (s : State) : State := { s with response := some ⟨error, data⟩ }

/-- A 32-bit read. -/
def read32 (off : Offset) : Access := .read .word off

/-- A 32-bit write. -/
def write32 (off : Offset) (v : Word) : Access := .write .word off v

/-- Multiplication by x: `xtime` of 41_galois_field.md R74 in GF(256), and R76's step in GF(16). -/
def mulX : GField → Byte → Byte
  | .gf256, v => (v <<< 1) ^^^ (if v.getLsbD 7 then 0x1D else 0)
  | .gf16, v => (v <<< 1) ^^^ (if v.getLsbD 3 then 0x13 else 0)

/-- `x^n·a` in the field. -/
def shiftMul (f : GField) (n : Nat) (a : Byte) : Byte := forUp n (fun _ v => mulX f v) a

/-- The xor of `g 0, …, g (n-1)`. -/
def xorSum (n : Nat) (g : Nat → Byte) : Byte := forUp n (fun k acc => acc ^^^ g k) 0

/-- The carry-less product of `a` and `b` reduced modulo the field's polynomial (41_galois_field.md R77). -/
def product (f : GField) (a b : Byte) : Byte := xorSum 8 (fun i => if b.getLsbD i then shiftMul f i a else 0)

/-- The power of the primitive element α = 2: `α^n` (41_galois_field.md R73, R75). -/
def alpha (f : GField) (n : Nat) : Byte := shiftMul f n 1

/-- `x^k` in GF(256). -/
def power (x : Byte) (k : Nat) : Byte := forUp k (fun _ v => product .gf256 x v) 1

/-- `P(x)` for a polynomial buffer (00_scope.md R11). -/
def polyValue (p : Poly) (x : Byte) : Byte := xorSum 64 (fun k => product .gf256 (coeff p k) (power x k))

/-- `R(x) = sum over j in 0..<N of BLK[N−1−j]·x^j` (00_scope.md R11). -/
def blockValue (blk : Poly) (n : Nat) (x : Byte) : Byte :=
  xorSum n (fun j => product .gf256 (coeff blk (n - 1 - j)) (power x j))

/-- The block's first `n` bytes are a codeword of the code with `npar` parity bytes: `C(α^i) = 0` for i in 0..<npar
(42_rs_encode.md R91). -/
def IsCodeword (blk : Poly) (n npar : Nat) : Prop := ∀ i < npar, blockValue blk n (alpha .gf256 i) = 0

/-- The coefficient of `x^k` in the product over i in 0..<n of `(x + α^i)` (42_rs_encode.md R87). -/
def generatorCoeff : Nat → Nat → Byte
  | 0, k => if k = 0 then 1 else 0
  | n + 1, k =>
    (if 1 ≤ k then generatorCoeff n (k - 1) else 0) ^^^ product .gf256 (alpha .gf256 n) (generatorCoeff n k)

/-- `q` is the value 41_galois_field.md R78 gives for `lutdiv(a, b)`, with the sentinel's three cases. -/
def IsTableQuotient (q a b : Byte) : Prop :=
  if b = 0 then (if a = 0 then q = 1 else q = a)
  else if a = 0 then product .gf256 q b = 1 else product .gf256 q b = a

/-- `c` is a locator of length `l` of the first `n` syndromes: its constant term is 1, its degree is at most `l`, and the
discrepancy it leaves at each step q in l..<n is 0 (43_rs_decode.md R94). -/
def IsLocator (syn : Poly) (n : Nat) (c : Poly) (l : Nat) : Prop :=
  coeff c 0 = 1 ∧ (∀ i, l < i → coeff c i = 0) ∧
    ∀ q, l ≤ q → q < n → xorSum (l + 1) (fun i => product .gf256 (coeff c i) (coeff syn (q - i))) = 0

/-- The number of each error code in STATUS.ERRCODE (60_exceptions.md R113). -/
def errorNumber : ErrCode → BitVec 4
  | .ok => 0
  | .illegalCmd => 1
  | .badParam => 2
  | .badOperand => 3
  | .gfDiv0 => 4
  | .gfLog0 => 5
  | .rsUncorrectable => 6
  | .fmtTooManyErrors => 7
  | .fmtAmbiguous => 8
  | .badCombination => 9

/-- The 32 format codewords (44_format_bch.md R107). -/
def formatWords : List (BitVec 15) := [
  0x4445, 0x4172, 0x4E2B, 0x4B1C, 0x55AE, 0x5099, 0x5FC0, 0x5AF7, 0x6793, 0x62A4, 0x6DFD, 0x68CA, 0x7678, 0x734F, 0x7C16, 0x7921,
  0x06DE, 0x03E9, 0x0CB0, 0x0987, 0x1735, 0x1202, 0x1D5B, 0x186C, 0x2508, 0x203F, 0x2F66, 0x2A51, 0x34E3, 0x31D4, 0x3E8D, 0x3BBA]

/-- The format codeword of a payload 0..31 (44_format_bch.md R107). -/
def formatWord (p : Nat) : BitVec 15 := formatWords.getD p 0

/-- The Hamming distance of two 15-bit values (00_scope.md R12). -/
def hamming (a b : BitVec 15) : Nat := (List.range 15).countP (fun i => a.getLsbD i != b.getLsbD i)

/-- The (version, ECC code) of each symbol number (44_format_bch.md R103). -/
def versionOf (sym : Nat) : BitVec 3 := [1, 2, 2, 3, 3, 4, 4, 4].getD sym 0

/-- The ECC code of each symbol number (44_format_bch.md R103). -/
def eccOf (sym : Nat) : BitVec 3 := [0, 1, 2, 1, 2, 1, 2, 3].getD sym 0

/-- NPAR_EFF of 10_state.md R22, with its table written out. -/
def effectiveNpar (c : Cfg) : Nat := if c.useSym then [2, 5, 6, 6, 8, 8, 10, 14].getD c.sym.toNat 0 else c.npar.toNat

/-- `npar_ok` of 40_command_execution.md R67. -/
def NparOk (c : Cfg) : Prop := 1 ≤ effectiveNpar c ∧ effectiveNpar c ≤ 63

/-- `block_ok` of 40_command_execution.md R67. -/
def BlockOk (c : Cfg) : Prop := NparOk c ∧ 1 ≤ c.k.toNat ∧ c.k.toNat + effectiveNpar c ≤ 64

/-- N_EFF of 10_state.md R22. -/
def blockLength (c : Cfg) : Nat := c.k.toNat + effectiveNpar c

/-- RS_INFO with NPAR_USED of the running command (10_state.md R24). -/
def withNparUsed (s : State) : RsInfo := { s.rsInfo with nparUsed := .ofNat 6 (effectiveNpar s.cfg) }

/-- Every stored field, the buffers and the outputs are at the values of 10_state.md R34. -/
def AtResetValues (s : State) : Prop :=
  readTarget .id s = 0x4D514543 ∧ readTarget .caps s = 0x07014040 ∧ readTarget .ctrl s = 0 ∧ readTarget .status s = 0 ∧
  s.cmdLast = 0 ∧ readTarget .cfg s = 0 ∧ s.result = 0 ∧ readTarget .rsInfo s = 0 ∧
  (∀ b i, coeff (s.buf b) i = 0) ∧ s.phase = .idle ∧ s.irq = false

/-- A group-B offset: CFG, RESULT, RS_INFO or a buffer word (20_memory.md R43). -/
def IsGroupB (off : Offset) : Prop :=
  off = 0x014 ∨ off = 0x018 ∨ off = 0x01C ∨ (0x100 ≤ off.toNat ∧ off.toNat ≤ 0x27F)

/-- An unmapped offset (20_memory.md R41). -/
def IsUnmapped (off : Offset) : Prop :=
  (0x020 ≤ off.toNat ∧ off.toNat ≤ 0x0FF) ∨ (0x280 ≤ off.toNat ∧ off.toNat ≤ 0x3FF)

/-- The access's data when it is refused, blocked or ignored: a read returns 0. -/
def zeroAnswer : Access → Option Word
  | .read .. => some 0
  | .write .. => none

/-- The commands whose parameter check is `npar_ok` (40_command_execution.md R67). -/
def NeedsNpar (i : Instr) : Prop := i = .rsGen ∨ i = .rsBm ∨ i = .rsOmega

/-- The commands whose parameter check is `block_ok` (40_command_execution.md R67). -/
def NeedsBlock (i : Instr) : Prop := i = .rsEnc ∨ i = .rsSyn ∨ i = .rsChien ∨ i = .rsDec

/-- The buffers a command may write (10_state.md R26). -/
def writesBuffers : Instr → List Buffer
  | .rsGen => [.gen]
  | .rsEnc => [.blk, .gen]
  | .rsSyn => [.syn]
  | .rsBm => [.sigma]
  | .rsOmega => [.sderiv, .omega]
  | .rsChien => [.blk]
  | .rsDec => [.blk, .syn, .sigma, .sderiv, .omega]
  | .nop | .gfAdd .. | .gfMul .. | .gfDiv .. | .gfExp .. | .gfLog .. | .fmtEnc _ | .fmtDec _ | .symLookup .. => []

/-- The RS commands (10_state.md R24, R26): the ones that write RS_INFO.NPAR_USED and never RESULT. -/
def isRsCommand : Instr → Bool
  | .rsGen | .rsEnc | .rsSyn | .rsBm | .rsOmega | .rsChien | .rsDec => true
  | .nop | .gfAdd .. | .gfMul .. | .gfDiv .. | .gfExp .. | .gfLog .. | .fmtEnc _ | .fmtDec _ | .symLookup .. => false

/-- The error codes a command may end with besides OK (60_exceptions.md R113). GF_EXP has none: its exponent is not
checked (41_galois_field.md R81). -/
def mayRaise : Instr → List ErrCode
  | .nop | .gfExp .. | .fmtEnc _ => []
  | .rsGen | .rsEnc | .rsSyn | .rsBm | .rsOmega | .rsChien => [.badParam]
  | .rsDec => [.badParam, .rsUncorrectable]
  | .gfAdd f _ _ | .gfMul f _ _ => if f = .gf16 then [.badOperand] else []
  | .gfDiv f _ _ => if f = .gf16 then [.badOperand, .gfDiv0] else [.gfDiv0]
  | .gfLog f _ => if f = .gf16 then [.badOperand, .gfLog0] else [.gfLog0]
  | .fmtDec _ => [.fmtTooManyErrors]
  | .symLookup .. => [.badCombination]

end Sys2Proof.Claims

open Sys2Proof Sys2Proof.Machine Sys2Proof.Safety Sys2Proof.Claims

/-! ### Encoding -/

/-- 30_encoding.md R53 to R56: a word decodes to a command exactly when it is that command's word: decoding the word of
any command gives the command back, with every operand at every value its field admits (every `Instr` is well formed by
its type), and no bit of a word that decodes to a command is ignored. -/
def Obligations.DecodeInvertsEncode : Prop :=
  (∀ i : Instr, decode (encode i) = .command i) ∧ (∀ (w : Word) (i : Instr), decode w = .command i → w = encode i)

/-- 30_encoding.md R56: a word that has a row's fixed bits decodes to that row's command (so at most one row matches),
and a word that has none's is ILLEGAL. -/
def Obligations.DecodeFollowsTheOpcodeMap : Prop := ∀ w : Word,
  (∀ r ∈ opcodeMap, w &&& r.mask = r.pat → decode w = .command (r.build w)) ∧
  ((∀ r ∈ opcodeMap, w &&& r.mask ≠ r.pat) → ∃ why, decode w = .illegal why)

/-- 30_encoding.md R57: the four grounds on which a word is illegal, with the "must be 0" argument bits of R54 written
out; an illegal word written to CMD is accepted, and its completion writes ILLEGAL_CMD and nothing else. -/
def Obligations.IllegalWordsFailWithIllegalCmd : Prop :=
  (∀ w : Word,
    let op := (w.extractLsb' 0 8).toNat
    (∃ why, decode w = .illegal why) ↔
      (¬ (op ≤ 0x07 ∨ (0x10 ≤ op ∧ op ≤ 0x14) ∨ (0x20 ≤ op ∧ op ≤ 0x22)) ∨
       w.extractLsb' 9 7 ≠ 0 ∨
       (w.getLsbD 8 = true ∧ ¬ (0x10 ≤ op ∧ op ≤ 0x14)) ∨
       (op ≤ 0x07 ∧ w.extractLsb' 16 16 ≠ 0) ∨
       ((op = 0x13 ∨ op = 0x14) ∧ w.extractLsb' 24 8 ≠ 0) ∨
       (op = 0x20 ∧ w.extractLsb' 21 11 ≠ 0) ∨
       (op = 0x21 ∧ w.getLsbD 31 = true) ∨
       (op = 0x22 ∧ (w.getLsbD 19 = true ∨ w.extractLsb' 23 9 ≠ 0)))) ∧
  (∀ (s : State) (w : Word) (why : Illegal), s.resetPin = false → s.phase = .idle → decode w = .illegal why →
    let t := portAccess (write32 0x010 w) s
    t.phase = .busy ∧ t.cmdLast = w ∧
      clockCycle true t = .next { s with
        cmdLast := w, lastOp := w.extractLsb' 0 8, errcode := .illegalCmd, done := true, busyCycles := 0
        response := some ⟨false, none⟩ })

/-- 30_encoding.md R61: the worked encodings. -/
def Obligations.WorkedEncodings : Prop :=
  (Asm.gfMul .gf256 0x53 0xCA).assemble = some 0xCA530011 ∧ (Asm.gfMul .gf16 7 9).assemble = some 0x09070111 ∧
  (Asm.gfExp .gf256 255).assemble = some 0x00FF0013 ∧ (Asm.gfInv .gf256 0x53).assemble = some 0x53010012 ∧
  (Asm.fmtEncSym 0 0).assemble = some 0x00000020 ∧ (Asm.fmtEncSym 7 3).assemble = some 0x001F0020 ∧
  (Asm.fmtDec 0x4445).assemble = some 0x44450021 ∧ (Asm.symLookup 4 3).assemble = some 0x00340022 ∧
  Asm.rsDec.assemble = some 0x00000007 ∧
  decode 0xCA530011 = .command (.gfMul .gf256 0x53 0xCA) ∧ decode 0x09070111 = .command (.gfMul .gf16 7 9) ∧
  decode 0x00FF0013 = .command (.gfExp .gf256 255) ∧ decode 0x53010012 = .command (.gfDiv .gf256 1 0x53) ∧
  decode 0x00000020 = .command (.fmtEnc 0) ∧ decode 0x001F0020 = .command (.fmtEnc 31) ∧
  decode 0x44450021 = .command (.fmtDec 0x4445) ∧ decode 0x00340022 = .command (.symLookup 4 3) ∧
  decode 0x00000007 = .command .rsDec ∧
  (∃ why, decode 0x00000107 = .illegal why) ∧ (∃ why, decode 0x00010001 = .illegal why) ∧
  (∃ why, decode 0x00000008 = .illegal why)

/-- 30_encoding.md R58, R59: each assembly line's command word by the formula of the table, where its operands fit, and
no word where one does not; the pseudo-commands are their expansions. -/
def Obligations.AssemblerNeverTruncates : Prop :=
  (∀ (f : GField) (a b : Nat),
    let fbit := match f with | .gf256 => 0 | .gf16 => 0x100
    (Asm.gfAdd f a b).assemble = (if a < 256 ∧ b < 256 then some (.ofNat 32 (0x10 + fbit + b * 2 ^ 24 + a * 2 ^ 16)) else none) ∧
    (Asm.gfMul f a b).assemble = (if a < 256 ∧ b < 256 then some (.ofNat 32 (0x11 + fbit + b * 2 ^ 24 + a * 2 ^ 16)) else none) ∧
    (Asm.gfDiv f a b).assemble = (if a < 256 ∧ b < 256 then some (.ofNat 32 (0x12 + fbit + b * 2 ^ 24 + a * 2 ^ 16)) else none) ∧
    (Asm.gfExp f a).assemble = (if a < 256 then some (.ofNat 32 (0x13 + fbit + a * 2 ^ 16)) else none) ∧
    (Asm.gfLog f a).assemble = (if a < 256 then some (.ofNat 32 (0x14 + fbit + a * 2 ^ 16)) else none) ∧
    (Asm.gfInv f b).assemble = (Asm.gfDiv f 1 b).assemble) ∧
  (∀ p : Nat, (Asm.fmtEnc p).assemble = if p ≤ 31 then some (.ofNat 32 (0x20 + p * 2 ^ 16)) else none) ∧
  (∀ o : Nat, (Asm.fmtDec o).assemble = if o ≤ 0x7FFF then some (.ofNat 32 (0x21 + o * 2 ^ 16)) else none) ∧
  (∀ v e : Nat, (Asm.symLookup v e).assemble =
    if v ≤ 7 ∧ e ≤ 7 then some (.ofNat 32 (0x22 + e * 2 ^ 20 + v * 2 ^ 16)) else none) ∧
  (∀ a : Nat, (Asm.gfSqr a).assemble = (Asm.gfMul .gf256 a a).assemble ∧
    (Asm.gfAlpha a).assemble = (Asm.gfExp .gf256 a).assemble) ∧
  (∀ sym mask : Nat, (Asm.fmtEncSym sym mask).assemble =
    if sym ≤ 7 ∧ mask ≤ 3 then (Asm.fmtEnc (sym * 4 + mask)).assemble else none) ∧
  Asm.rsCheck.assemble = Asm.rsSyn.assemble ∧ Asm.nop.assemble = some 0 ∧ Asm.rsGen.assemble = some 1 ∧
  Asm.rsEnc.assemble = some 2 ∧ Asm.rsSyn.assemble = some 3 ∧ Asm.rsBm.assemble = some 4 ∧
  Asm.rsOmega.assemble = some 5 ∧ Asm.rsChien.assemble = some 6 ∧ Asm.rsDec.assemble = some 7

/-! ### The command lifecycle -/

/-- 40_command_execution.md R64, R66: while BUSY, a step that completes the running command is `exec` of the command
CMD_LAST decodes to, on the state with the event taken off the agenda; with nothing pending the step completes it; and
a word placed by `withFetchWord` is run by the very next step. Outside a hardware reset every other clock cycle keeps the
state: BUSY, it only counts (R65); IDLE, it changes nothing (60_exceptions.md R127, 70_reset_and_hazards.md R131). The empty
agenda's completing cycle, the count and `withFetchWord` are the model's (log entries 2, 3 and 9). -/
def Obligations.StepRunsTheDecodedCommand : Prop :=
  (∀ (s : State) (i : Instr), s.phase = .busy → s.resetPin = false → decode s.cmdLast = .command i →
    (s.agenda = [] → step s = exec i s) ∧
    (∀ rest, s.agenda = .cycle true :: rest → step s = exec i { s with agenda := rest }) ∧
    (∀ rest fin, s.agenda = .cycle fin :: rest → Config.cmdLatency (opField s.cmdLast) ≤ s.busyCycles + 1 →
      step s = exec i { s with agenda := rest })) ∧
  (∀ (s : State) (nbits w : Nat) (i : Instr), decodeTableWord nbits w = some i →
    step (s.withFetchWord nbits w) = exec i { s.withFetchWord nbits w with agenda := s.agenda }) ∧
  (∀ (s : State) (rest : List Event) (fin : Bool), s.phase = .busy → s.resetPin = false →
    s.agenda = .cycle fin :: rest →
      step s = if fin = true ∨ Config.cmdLatency (opField s.cmdLast) ≤ s.busyCycles + 1
        then runCommand { s with agenda := rest }
        else .next { s with agenda := rest, busyCycles := s.busyCycles + 1 }) ∧
  (∀ s : State, s.phase = .idle → s.resetPin = false →
    (s.agenda = [] → step s = .next s) ∧
    (∀ rest fin, s.agenda = .cycle fin :: rest → step s = .next { s with agenda := rest }))

/-- 40_command_execution.md R62: what acceptance writes, and that it writes nothing else. -/
def Obligations.AcceptanceWritesOnlyStatusAndCmdLast : Prop := ∀ (s : State) (w : Word),
  s.resetPin = false → s.phase = .idle →
    portAccess (write32 0x010 w) s = answered false none { s with
      cmdLast := w, done := false, errcode := .ok, lastOp := w.extractLsb' 0 8, phase := .busy, busyCycles := 0 }

/-- 40_command_execution.md R63: a CMD write while BUSY changes nothing but CMD_OVF. -/
def Obligations.CmdWriteWhileBusyIsDropped : Prop := ∀ (s : State) (w : Word),
  s.resetPin = false → s.phase = .busy →
    portAccess (write32 0x010 w) s = answered false none { s with cmdOvf := true }

/-- 20_memory.md R46: the port handles the oldest access in full before anything else happens, and it gets an answer.
(The order of events is the model's `agenda`, log entry 1.) -/
def Obligations.AccessesTakeEffectOneAtATime : Prop := ∀ (s : State) (a : Access) (rest : List Event),
  s.agenda = .access a :: rest →
    step s = .next { portAccess a s with agenda := rest } ∧ ∃ r, (portAccess a s).response = some r

/-- 40_command_execution.md R64: whatever accesses the port handles meanwhile, a running command that is not reset has
completed once CMD_LATENCY(op) cycles have passed since its acceptance (`busyCycles` counts them: log entry 3). -/
def Obligations.CommandCompletesWithinItsLatency : Prop := ∀ (s : State) (es : List Event),
  s.phase = .busy → s.resetPin = false → s.busyCycles < Config.cmdLatency (opField s.cmdLast) →
  (∀ e ∈ es, isReset e = false) → Config.cmdLatency (opField s.cmdLast) ≤ s.busyCycles + countCycles es →
    ∃ k t, k ≤ es.length ∧ Sys2Proof.core.run k { s with agenda := es } = .next t ∧
      t.phase = .idle ∧ t.done = true ∧ t.cmdLast = s.cmdLast

/-- 60_exceptions.md R118, R127: no step stops the machine, in any state and for any event. -/
def Obligations.EveryStepHasANextState : Prop := ∀ s : State, ∃ t, step s = .next t

/-- 40_command_execution.md R65, 20_memory.md R43: host accesses, other than a soft reset, change nothing a running
command reads or writes, so its completion computes what it would have computed at once. -/
def Obligations.HostAccessesCannotDisturbARunningCommand : Prop := ∀ (s : State) (accesses : List Access),
  s.phase = .busy → s.resetPin = false → (∀ a ∈ accesses, isSoftReset a = false) →
    let s' := accesses.foldl (fun s a => portAccess a s) s
    s'.phase = .busy ∧ s'.cmdLast = s.cmdLast ∧ SameCommandState s s' ∧
    ∃ t t', runCommand s = .next t ∧ runCommand s' = .next t' ∧ t.errcode = t'.errcode ∧ SameCommandState t t'

/-- 10_state.md R33, 40_command_execution.md R65: no command's effect depends on STATUS, CTRL, RESULT or RS_INFO. For a
command and the contents of CFG and the buffers there are one error code, one set of buffer contents and, for RESULT and
each field of RS_INFO, one value written or none (the field then keeps its value), the same whatever else the state
holds. -/
def Obligations.CommandsReadNoFlag : Prop := ∀ (i : Instr) (s : State),
  ∃ (err : ErrCode) (contents : Buffer → Poly) (result : Option Word) (l ncorr : Option (BitVec 7))
    (nparUsed : Option (BitVec 6)) (synNz : Option Bool),
    ∀ s' : State, s'.cfg = s.cfg → (∀ b, s'.buf b = s.buf b) →
      ∃ t, exec i s' = .next t ∧ t.errcode = err ∧ t.cfg = s.cfg ∧ (∀ b, t.buf b = contents b) ∧
        t.result = result.getD s'.result ∧ t.rsInfo.l = l.getD s'.rsInfo.l ∧
        t.rsInfo.ncorr = ncorr.getD s'.rsInfo.ncorr ∧ t.rsInfo.nparUsed = nparUsed.getD s'.rsInfo.nparUsed ∧
        t.rsInfo.synNz = synNz.getD s'.rsInfo.synNz

/-- 10_state.md R26: a command writes only what the roles table gives it (RS_ENC of BLK only the bytes K to N − 1),
besides the DONE, ERRCODE and phase of its completion. -/
def Obligations.CommandsWriteOnlyTheirOwnState : Prop := ∀ (i : Instr) (s : State), ∃ t, exec i s = .next t ∧
  t.cfg = s.cfg ∧ t.ie = s.ie ∧ t.busyAcc = s.busyAcc ∧ t.cmdOvf = s.cmdOvf ∧ t.lastOp = s.lastOp ∧
  t.cmdLast = s.cmdLast ∧ t.resetPin = s.resetPin ∧ t.response = s.response ∧ t.agenda = s.agenda ∧
  t.done = true ∧ t.phase = .idle ∧
  (∀ b, b ∉ writesBuffers i → t.buf b = s.buf b) ∧
  (isRsCommand i = true ∨ i = .nop → t.result = s.result) ∧
  (i ≠ .rsBm → i ≠ .rsDec → t.rsInfo.l = s.rsInfo.l) ∧ (i ≠ .rsChien → i ≠ .rsDec → t.rsInfo.ncorr = s.rsInfo.ncorr) ∧
  (i ≠ .rsSyn → i ≠ .rsDec → t.rsInfo.synNz = s.rsInfo.synNz) ∧
  (isRsCommand i = false → t.rsInfo.nparUsed = s.rsInfo.nparUsed) ∧
  ((i = .rsEnc ∨ i = .rsChien ∨ i = .rsDec) →
    ∀ j, blockLength s.cfg ≤ j → coeff t.blk j = coeff s.blk j) ∧
  (i = .rsEnc → ∀ j < s.cfg.k.toNat, coeff t.blk j = coeff s.blk j)

/-- 60_exceptions.md R113, R118: which codes a command can end with, and that one that ends with BAD_PARAM, BAD_OPERAND,
GF_DIV0, GF_LOG0 or BAD_COMBINATION has written nothing but its completion. (FMT_AMBIGUOUS is in no command's list: it is
never raised, 44_format_bch.md R110; GF_EXP has none, as R81 and R85 say against R113's row, log entry 17.) -/
def Obligations.CommandsRaiseOnlyTheirOwnErrors : Prop := ∀ (i : Instr) (s : State), ∃ t, exec i s = .next t ∧
  (t.errcode = .ok ∨ t.errcode ∈ mayRaise i) ∧
  ((t.errcode = .badParam ∨ t.errcode = .badOperand ∨ t.errcode = .gfDiv0 ∨ t.errcode = .gfLog0 ∨
    t.errcode = .badCombination) → t = completed t.errcode s)

/-! ### The host port and the registers -/

/-- 20_memory.md R38: an access that is not 32 bits wide at a multiple of 4 gets an error response and changes
nothing, in both phases. -/
def Obligations.UnsupportedAccessIsRefused : Prop := ∀ (s : State) (a : Access), s.resetPin = false →
  (a.width ≠ .word ∨ a.off.toNat % 4 ≠ 0) → portAccess a s = answered true (zeroAnswer a) s

/-- 20_memory.md R41: an unmapped offset reads 0 and ignores writes, with no error and no flag, in both phases. -/
def Obligations.UnmappedOffsetsReadZero : Prop := ∀ (s : State) (off : Offset) (v : Word), s.resetPin = false →
  off.toNat % 4 = 0 → IsUnmapped off →
    portAccess (read32 off) s = answered false (some 0) s ∧ portAccess (write32 off v) s = answered false none s

/-- 20_memory.md R42: writes to ID, CAPS, RESULT and RS_INFO while IDLE are ignored; while BUSY those to RESULT and
RS_INFO are blocked group-B accesses and those to ID and CAPS are ignored. -/
def Obligations.ReadOnlyRegistersIgnoreWrites : Prop := ∀ (s : State) (off : Offset) (v : Word), s.resetPin = false →
  (off = 0x000 ∨ off = 0x004 ∨ off = 0x018 ∨ off = 0x01C) →
    (s.phase = .idle → portAccess (write32 off v) s = answered false none s) ∧
    (s.phase = .busy → (off = 0x000 ∨ off = 0x004) → portAccess (write32 off v) s = answered false none s) ∧
    (s.phase = .busy → (off = 0x018 ∨ off = 0x01C) →
      portAccess (write32 off v) s = answered false none { s with busyAcc := true })

/-- 20_memory.md R43: a group-B access while BUSY reads 0, writes nothing and sets BUSY_ACC; a read of a group-A
register sets nothing. -/
def Obligations.GroupBIsBlockedWhileBusy : Prop := ∀ (s : State) (off : Offset) (v : Word), s.resetPin = false →
  s.phase = .busy → off.toNat % 4 = 0 →
    (IsGroupB off → portAccess (read32 off) s = answered false (some 0) { s with busyAcc := true } ∧
      portAccess (write32 off v) s = answered false none { s with busyAcc := true }) ∧
    (off.toNat ≤ 0x010 → ∃ d, portAccess (read32 off) s = answered false (some d) s)

/-- 20_memory.md R39, R40: buffer words while IDLE are little-endian; a write stores the four bytes and leaves every
other byte of every buffer, and everything else, alone. -/
def Obligations.BufferWordsAreLittleEndian : Prop := ∀ (s : State) (b : Buffer) (w : Nat) (v : Word),
  s.resetPin = false → s.phase = .idle → w < 16 →
    let off : Offset := .ofNat 10 (b.base + 4 * w)
    portAccess (read32 off) s = answered false (some (coeff (s.buf b) (4 * w + 3) ++ (coeff (s.buf b) (4 * w + 2) ++
      (coeff (s.buf b) (4 * w + 1) ++ coeff (s.buf b) (4 * w))))) s ∧
    ∃ p : Poly, portAccess (write32 off v) s = answered false none (s.setBuf b p) ∧
      coeff p (4 * w) = v.extractLsb' 0 8 ∧ coeff p (4 * w + 1) = v.extractLsb' 8 8 ∧
      coeff p (4 * w + 2) = v.extractLsb' 16 8 ∧ coeff p (4 * w + 3) = v.extractLsb' 24 8 ∧
      (∀ i, i < 4 * w ∨ 4 * w + 4 ≤ i → coeff p i = coeff (s.buf b) i) ∧
      (∀ b', (s.setBuf b p).buf b' = if b' = b then p else s.buf b')

/-- 10_state.md R21: CFG stores K, NPAR, SYM and USE_SYM as written, reads back with its reserved bits 0, and with
CFG = 0 every RS command ends with BAD_PARAM. -/
def Obligations.CfgStoresItsFieldsAsWritten : Prop :=
  (∀ (s : State) (v : Word), s.resetPin = false → s.phase = .idle →
    portAccess (write32 0x014 v) s = answered false none
      { s with cfg := ⟨v.extractLsb' 0 7, v.extractLsb' 8 7, v.extractLsb' 16 3, v.getLsbD 19⟩ } ∧
    (portAccess (read32 0x014) (portAccess (write32 0x014 v) s)).response = some ⟨false, some (v &&& 0x000F7F7F)⟩) ∧
  readTarget .cfg State.reset = 0 ∧
  (∀ (s : State) (i : Instr), cfgWord s.cfg = 0 → isRsCommand i = true → exec i s = .next (completed .badParam s))

/-- 10_state.md R17, 70_reset_and_hazards.md R129: CTRL reads IE in bit 0 and 0 elsewhere; a write with SRST = 0 sets IE
and nothing else; a write with SRST = 1, in either phase, resets, gets a normal response, does not store its bit 0, and
CTRL reads 0 afterwards. -/
def Obligations.CtrlStoresIeOrResets : Prop := ∀ (s : State) (v : Word), s.resetPin = false →
  portAccess (read32 0x008) s = answered false (some (if s.ie then 1 else 0)) s ∧
  (v.getLsbD 1 = false → portAccess (write32 0x008 v) s = answered false none { s with ie := v.getLsbD 0 }) ∧
  (v.getLsbD 1 = true →
    let t := portAccess (write32 0x008 v) s
    AtResetValues t ∧ t.ie = false ∧ t.response = some ⟨false, none⟩ ∧
    (portAccess (read32 0x008) t).response = some ⟨false, some 0⟩)

/-- 10_state.md R18, R23, R24, 60_exceptions.md R113: the fields of STATUS as it reads, in either phase, with the number of
each error code, and the fields of RS_INFO as it reads while IDLE; RESULT reads, while IDLE, the value the last GF, FMT or SYM command wrote. -/
def Obligations.StatusResultAndRsInfoReadTheirFields : Prop := ∀ s : State, s.resetPin = false →
  (∃ v : Word, portAccess (read32 0x00C) s = answered false (some v) s ∧
    v.getLsbD 0 = (s.phase == .busy) ∧ v.getLsbD 1 = s.done ∧ v.getLsbD 2 = (v.extractLsb' 8 4 != 0) ∧
    v.getLsbD 3 = s.busyAcc ∧ v.getLsbD 4 = s.cmdOvf ∧ v.extractLsb' 5 3 = 0 ∧ v.extractLsb' 8 4 = errorNumber s.errcode ∧
    v.extractLsb' 12 4 = 0 ∧ v.extractLsb' 16 8 = s.lastOp ∧ v.extractLsb' 24 8 = 0) ∧
  (s.phase = .idle → portAccess (read32 0x018) s = answered false (some s.result) s) ∧
  (s.phase = .idle → ∃ v : Word, portAccess (read32 0x01C) s = answered false (some v) s ∧
    v.extractLsb' 0 7 = s.rsInfo.l ∧ v.getLsbD 7 = false ∧ v.extractLsb' 8 7 = s.rsInfo.ncorr ∧ v.getLsbD 15 = false ∧
    v.extractLsb' 16 6 = s.rsInfo.nparUsed ∧ v.extractLsb' 22 2 = 0 ∧ v.getLsbD 24 = s.rsInfo.synNz ∧
    v.extractLsb' 25 7 = 0)

/-- 10_state.md R19: the W1C bits of STATUS; every other bit of the value is ignored, ERRCODE stays (60_exceptions.md
R119), and while BUSY there is no DONE to clear. -/
def Obligations.StatusWriteClearsItsW1cBits : Prop := ∀ (s : State) (v : Word), s.resetPin = false →
  portAccess (write32 0x00C v) s = answered false none { s with
    done := if v.getLsbD 1 then false else s.done
    busyAcc := if v.getLsbD 3 then false else s.busyAcc
    cmdOvf := if v.getLsbD 4 then false else s.cmdOvf } ∧
  (EngineInv s → s.phase = .busy → s.done = false)

/-- 10_state.md R20: CMD reads the last accepted word: the one a write while IDLE gave it, unchanged by a write that is
dropped while BUSY, 0 after reset; in either phase. -/
def Obligations.CmdReadsTheLastAcceptedWord : Prop :=
  (∀ s : State, s.resetPin = false → portAccess (read32 0x010) s = answered false (some s.cmdLast) s) ∧
  (∀ (s : State) (w : Word), s.resetPin = false →
    (portAccess (read32 0x010) (portAccess (write32 0x010 w) s)).response =
      some ⟨false, some (if s.phase = .idle then w else s.cmdLast)⟩) ∧
  State.reset.cmdLast = 0

/-- 10_state.md R15, R16: ID and CAPS read their constants in every state outside a hardware reset. -/
def Obligations.IdentityRegistersNeverChange : Prop := ∀ s : State, s.resetPin = false →
  portAccess (read32 0x000) s = answered false (some 0x4D514543) s ∧
  portAccess (read32 0x004) s = answered false (some 0x07014040) s

/-- 20_memory.md R35, R36: the engine answers exactly the 1024 bus addresses from ENGINE_BASE, a multiple of 1024. -/
def Obligations.WindowIsOneKilobyteAtEngineBase : Prop :=
  Config.engineBase % 1024 = 0 ∧
  (∀ off : Offset, windowOffset (Config.engineBase + off.toNat) = some off) ∧
  (∀ addr : Nat, (addr < Config.engineBase ∨ Config.engineBase + 1024 ≤ addr) → windowOffset addr = none)

/-! ### The interrupt, the flags, reset and the invariant -/

/-- 10_state.md R30: `irq` is IE and DONE, and it rises and falls only as the rule lists. -/
def Obligations.IrqIsIeAndDone : Prop :=
  (∀ s : State, s.irq = (s.ie && s.done)) ∧
  (∀ s t : State, EngineInv s → step s = .next t →
    (s.irq = false → t.irq = true →
      (isCycle (nextEvent s) = true ∧ s.resetPin = false ∧ s.phase = .busy ∧ t.phase = .idle ∧ t.ie = true) ∨
      (s.done = true ∧ ∃ v, nextEvent s = .access (write32 0x008 v) ∧ v.getLsbD 0 = true)) ∧
    (s.irq = true → t.irq = false →
      mayReset s = true ∨
      (∃ v, nextEvent s = .access (write32 0x00C v) ∧ v.getLsbD 1 = true) ∨
      (∃ v, nextEvent s = .access (write32 0x010 v)) ∨
      (∃ v, nextEvent s = .access (write32 0x008 v) ∧ v.getLsbD 0 = false)))

/-- 10_state.md R33: what sets and what clears each flag, over one step of any kind. -/
def Obligations.FlagsChangeOnlyAsTabled : Prop := ∀ s t : State, EngineInv s → step s = .next t →
  let e := nextEvent s
  let completes := isCycle e = true ∧ s.resetPin = false ∧ s.phase = .busy ∧ t.phase = .idle
  let cmdWrite := ∃ v, e = .access (write32 0x010 v)
  (s.phase = .idle → t.phase = .busy → cmdWrite) ∧
  (s.phase = .busy → t.phase = .idle → completes ∨ mayReset s = true) ∧
  (s.done = false → t.done = true → completes) ∧
  (s.done = true → t.done = false → mayReset s = true ∨ cmdWrite ∨
    ∃ v, e = .access (write32 0x00C v) ∧ v.getLsbD 1 = true) ∧
  (s.errFlag = false → t.errFlag = true → completes ∧ t.errcode ≠ .ok) ∧
  (s.errFlag = true → t.errFlag = false → mayReset s = true ∨ cmdWrite) ∧
  (s.busyAcc = false → t.busyAcc = true → s.phase = .busy ∧
    ∃ a, e = .access a ∧ a.width = .word ∧ IsGroupB a.off) ∧
  (s.busyAcc = true → t.busyAcc = false → mayReset s = true ∨
    ∃ v, e = .access (write32 0x00C v) ∧ v.getLsbD 3 = true) ∧
  (s.cmdOvf = false → t.cmdOvf = true → s.phase = .busy ∧ cmdWrite) ∧
  (s.cmdOvf = true → t.cmdOvf = false → mayReset s = true ∨
    ∃ v, e = .access (write32 0x00C v) ∧ v.getLsbD 4 = true) ∧
  (s.rsInfo.synNz ≠ t.rsInfo.synNz → mayReset s = true ∨
    (completes ∧ (decode s.cmdLast = .command .rsSyn ∨ decode s.cmdLast = .command .rsDec)))

/-- 10_state.md R34, 70_reset_and_hazards.md R128, R129: `State.reset`, the state after a soft reset and the state after
the hardware reset input is released have the reset values. (That the release leaves them whenever the input was asserted,
for however long and from whatever state, is the model's choice, log entries 5 and 6.) -/
def Obligations.ResetLeavesTheResetValues : Prop :=
  AtResetValues State.reset ∧
  (∀ (s : State) (v : Word), s.resetPin = false → v.getLsbD 1 = true → AtResetValues (portAccess (write32 0x008 v) s)) ∧
  (∀ s : State, s.resetPin = true → AtResetValues (driveResetInput false s))

/-- 70_reset_and_hazards.md R128: while the hardware reset is asserted reads return 0, writes are dropped and nothing
is an error; on release the reset input is off and the state is the reset state. (That every pulse resets, however short,
is the model's choice, log entry 6; that a misaligned or narrow access gets no error either is its reading of R128
against 20_memory.md R38, log entry 18.) -/
def Obligations.HardwareResetIgnoresAccesses : Prop := ∀ (s : State) (accesses : List Access),
  let s' := accesses.foldl (fun s a => portAccess a s) (driveResetInput true s)
  (∀ a, portAccess a s' = answered false (zeroAnswer a) s') ∧
  (driveResetInput false s').resetPin = false ∧ AtResetValues (driveResetInput false s')

/-- 70_reset_and_hazards.md R130: a reset while BUSY aborts the command. After a soft reset the state is the reset state,
with DONE and irq 0, and the cycles that follow complete nothing. The assertion of the hardware reset input sets no DONE
and raises no irq; whatever accesses come while it is asserted, the next clock cycle and the release leave the reset
state; and the assertion of an asynchronous input leaves it at once. (When a hardware reset takes effect is the model's
choice, log entries 5 and 24.) -/
def Obligations.ResetAbortsTheRunningCommand : Prop := ∀ (s t : State) (rest : List Event),
  s.phase = .busy → s.resetPin = false → step s = .next t →
  (∀ v, s.agenda = .access (write32 0x008 v) :: rest → v.getLsbD 1 = true →
    AtResetValues t ∧ t.done = false ∧ t.irq = false ∧ ∀ fin, clockCycle fin t = .next t) ∧
  (s.agenda = .resetInput true :: rest →
    (s.done = false → t.done = false) ∧ (s.irq = false → t.irq = false) ∧
    (if Config.resetSynchronous then t = { s with resetPin := true, agenda := rest } else AtResetValues t) ∧
    ∀ accesses : List Access,
      let u := accesses.foldl (fun u a => portAccess a u) t
      (∀ fin, ∃ w, clockCycle fin u = .next w ∧ AtResetValues w ∧ w.resetPin = true) ∧
      AtResetValues (driveResetInput false u))

/-- The invariant holds right after reset (10_state.md R34). -/
def Obligations.ResetMeetsTheInvariant : Prop := EngineInv State.reset

/-- Every step keeps the invariant: LAST_OP names CMD_LAST's opcode, a running command has DONE = 0 and ERRCODE = 0 and
is within its latency, an asynchronous reset that is held keeps the reset state (log entries 5 and 24), and L, NCORR and RESULT
stay in range (10_state.md R18, R23,
R24, R29; 40_command_execution.md R62, R64). -/
def Obligations.EveryStepKeepsTheInvariant : Prop := ∀ s t : State, EngineInv s → step s = .next t → EngineInv t

/-! ### GF commands -/

/-- 41_galois_field.md R74: the GF(256) tables satisfy the recurrences that define them. -/
def Obligations.Gf256TablesFollowTheirDefinition : Prop :=
  exp256 0 = 0x01 ∧ (∀ i ≤ 253, exp256 (i + 1) = mulX .gf256 (exp256 i)) ∧ exp256 255 = 0x01 ∧
  (∀ i ≤ 254, log256 (exp256 i) = i) ∧ log256 0 = 0 ∧ (∀ x : Byte, x ≠ 0 → exp256 (log256 x) = x)

/-- 41_galois_field.md R77: the field laws, in both fields on their elements. -/
def Obligations.GfMulObeysTheFieldLaws : Prop := ∀ (f : GField) (a b c : Byte),
  isElement f a = true → isElement f b = true → isElement f c = true →
    gfMul f a b = product f a b ∧ gfMul f a b = gfMul f b a ∧ gfMul f (gfMul f a b) c = gfMul f a (gfMul f b c) ∧
    gfMul f a (b ^^^ c) = gfMul f a b ^^^ gfMul f a c ∧ gfMul f 1 a = a ∧ isElement f (gfMul f a b) = true ∧
    (b ≠ 0 → gfMul f (gfDiv f a b) b = a)

/-- 41_galois_field.md R78: `lutdiv` is the quotient for nonzero operands and has the sentinel's values at zero. -/
def Obligations.LutDivReadsTheSentinel : Prop := ∀ a b : Byte,
  (a ≠ 0 → b ≠ 0 → lutDiv a b = gfDiv .gf256 a b) ∧ (b ≠ 0 → lutDiv 0 b = gfDiv .gf256 1 b) ∧
  (a ≠ 0 → lutDiv a 0 = a) ∧ lutDiv 0 0 = 1 ∧ IsTableQuotient (lutDiv a b) a b

/-- 41_galois_field.md R81, R82: GF_ADD on every operand. -/
def Obligations.GfAddGivesTheXor : Prop := ∀ (f : GField) (a b : Byte) (s : State),
  exec (.gfAdd f a b) s =
    if f = .gf16 ∧ (16 ≤ a.toNat ∨ 16 ≤ b.toNat) then .next (completed .badOperand s)
    else .next (completed .ok { s with result := (a ^^^ b).setWidth 32 })

/-- 41_galois_field.md R81, R83: GF_MUL on every operand, the result as the carry-less product reduced modulo the
field's polynomial. -/
def Obligations.GfMulGivesTheFieldProduct : Prop := ∀ (f : GField) (a b : Byte) (s : State),
  exec (.gfMul f a b) s =
    if f = .gf16 ∧ (16 ≤ a.toNat ∨ 16 ≤ b.toNat) then .next (completed .badOperand s)
    else .next (completed .ok { s with result := (product f a b).setWidth 32 })

/-- 41_galois_field.md R81, R84, 60_exceptions.md R116: GF_DIV on every operand; BAD_OPERAND wins over GF_DIV0, and the
result is the element whose product with B is A. -/
def Obligations.GfDivGivesTheFieldQuotient : Prop := ∀ (f : GField) (a b : Byte) (s : State),
  (f = .gf16 ∧ (16 ≤ a.toNat ∨ 16 ≤ b.toNat) → exec (.gfDiv f a b) s = .next (completed .badOperand s)) ∧
  (¬ (f = .gf16 ∧ (16 ≤ a.toNat ∨ 16 ≤ b.toNat)) →
    (b = 0 → exec (.gfDiv f a b) s = .next (completed .gfDiv0 s)) ∧
    (b ≠ 0 → ∃ q : Byte, product f q b = a ∧ isElement f q = true ∧
      exec (.gfDiv f a b) s = .next (completed .ok { s with result := q.setWidth 32 })))

/-- 41_galois_field.md R81, R85: GF_EXP gives α^A for every 8-bit exponent in both fields, never an error. -/
def Obligations.GfExpGivesThePowerOfAlpha : Prop := ∀ (f : GField) (a : Byte) (s : State),
  exec (.gfExp f a) s = .next (completed .ok { s with result := (alpha f a.toNat).setWidth 32 }) ∧ alpha f a.toNat ≠ 0

/-- 41_galois_field.md R81, R86, 60_exceptions.md R116: GF_LOG on every operand; the result is the exponent below the
group's order whose power of α is A. -/
def Obligations.GfLogInvertsTheExponential : Prop := ∀ (f : GField) (a : Byte) (s : State),
  (f = .gf16 ∧ 16 ≤ a.toNat → exec (.gfLog f a) s = .next (completed .badOperand s)) ∧
  (¬ (f = .gf16 ∧ 16 ≤ a.toNat) →
    (a = 0 → exec (.gfLog f a) s = .next (completed .gfLog0 s)) ∧
    (a ≠ 0 → ∃ e, e < fieldOrder f ∧ alpha f e = a ∧
      exec (.gfLog f a) s = .next (completed .ok { s with result := .ofNat 32 e })))

/-! ### NOP and the format commands -/

/-- 40_command_execution.md R72: NOP sets DONE with no error and touches nothing else; its word is 0; issued from reset
it leaves STATUS = 0x00000002. -/
def Obligations.NopOnlyCompletes : Prop :=
  decode 0x00000000 = .command .nop ∧ (∀ w : Word, decode w = .command .nop → w = 0) ∧
  (∀ s : State, exec .nop s = .next (completed .ok s)) ∧
  (∃ t, clockCycle true (accept 0 State.reset) = .next t ∧ statusWord t = 0x00000002)

/-- 44_format_bch.md R106, R109: FMT_ENC writes the format codeword: without the mask its high bits are the payload and
it is a multiple of the BCH generator over GF(2). -/
def Obligations.FmtEncWritesTheBchCodeword : Prop := ∀ (p : BitVec 5) (s : State), ∃ c : BitVec 15,
  exec (.fmtEnc p) s = .next (completed .ok { s with result := c.setWidth 32 }) ∧
  (c ^^^ 0x4445).extractLsb' 10 5 = p ∧
  (∃ q : BitVec 5, c ^^^ 0x4445 =
    forUp 5 (fun i acc => if q.getLsbD i then acc ^^^ (0x537#15 <<< i) else acc) 0) ∧
  c = formatWord p.toNat

/-- 44_format_bch.md R110: FMT_DEC finds the lowest payload at the minimum distance, counts the ties, writes RESULT
always, and reports FMT_TOO_MANY_ERRORS from distance 4 on before FMT_AMBIGUOUS. -/
def Obligations.FmtDecFindsTheNearestCodeword : Prop := ∀ (obs : BitVec 15) (s : State),
  ∃ (best dist ties : Nat) (r : Word), best < 32 ∧ dist = hamming (formatWord best) obs ∧
    (∀ p < 32, dist ≤ hamming (formatWord p) obs) ∧ (∀ p < best, dist < hamming (formatWord p) obs) ∧
    ties = (List.range 32).countP (fun p => hamming (formatWord p) obs == dist) ∧
    exec (.fmtDec obs) s = .next (completed
      (if 4 ≤ dist then .fmtTooManyErrors else if 1 < ties then .fmtAmbiguous else .ok) { s with result := r }) ∧
    r.extractLsb' 0 5 = .ofNat 5 best ∧ r.extractLsb' 5 3 = 0 ∧ r.extractLsb' 8 3 = versionOf (best / 4) ∧
    r.getLsbD 11 = false ∧ r.extractLsb' 12 3 = eccOf (best / 4) ∧ r.getLsbD 15 = false ∧
    (r.extractLsb' 16 4).toNat = dist ∧ r.extractLsb' 20 4 = 0 ∧ (r.extractLsb' 24 6).toNat = ties ∧
    r.extractLsb' 30 2 = 0

/-- 44_format_bch.md R108: a value within distance 3 of a codeword decodes to that codeword's payload with no error. -/
def Obligations.FmtDecCorrectsThreeFlippedBits : Prop := ∀ (obs : BitVec 15) (p : BitVec 5) (s : State),
  hamming (formatWord p.toNat) obs ≤ 3 →
    ∃ t, exec (.fmtDec obs) s = .next t ∧ t.errcode = .ok ∧ t.result.extractLsb' 0 5 = p ∧
      (t.result.extractLsb' 16 4).toNat = hamming (formatWord p.toNat) obs ∧ t.result.extractLsb' 24 6 = 1

/-- 44_format_bch.md R103, R111: SYM_LOOKUP on the eight pairs of SYM_TABLE and on every other pair. -/
def Obligations.SymLookupFollowsTheSymbolTable : Prop := ∀ (version ecc : BitVec 3) (s : State),
  (∀ sym < 8, versionOf sym = version → eccOf sym = ecc → exec (.symLookup version ecc) s = .next (completed .ok
    { s with result := .ofNat 32 ([2, 5, 6, 6, 8, 8, 10, 14].getD sym 0 * 256 + sym) })) ∧
  ((∀ sym < 8, ¬ (versionOf sym = version ∧ eccOf sym = ecc)) →
    exec (.symLookup version ecc) s = .next (completed .badCombination s))

/-! ### Reed-Solomon commands -/

/-- 40_command_execution.md R67: the parameter checks, with the effective lengths of 10_state.md R22: an RS command ends
with BAD_PARAM and nothing written exactly when its check fails. -/
def Obligations.RsCommandsCheckTheirParameters : Prop := ∀ (i : Instr) (s : State),
  (NeedsNpar i ∧ ¬ NparOk s.cfg ∨ NeedsBlock i ∧ ¬ BlockOk s.cfg → exec i s = .next (completed .badParam s)) ∧
  (NeedsNpar i ∧ NparOk s.cfg ∨ NeedsBlock i ∧ BlockOk s.cfg →
    ∃ t, exec i s = .next t ∧ t.errcode ≠ .badParam ∧ t.rsInfo.nparUsed = .ofNat 6 (effectiveNpar s.cfg))

/-- 42_rs_encode.md R87, R88: RS_GEN writes the product of `(x + α^i)` into GEN and NPAR_USED, and nothing else. -/
def Obligations.RsGenWritesTheGenerator : Prop := ∀ s : State, NparOk s.cfg →
  ∃ g : Poly, (∀ k < 64, coeff g k = generatorCoeff (effectiveNpar s.cfg) k) ∧
    exec .rsGen s = .next (completed .ok { s with gen := g, rsInfo := withNparUsed s })

/-- 42_rs_encode.md R90, R91: RS_ENC keeps the data and the bytes past the block, and makes the block a codeword: its
polynomial vanishes at α^0 … α^(n−1). It writes BLK, GEN and NPAR_USED and nothing else. -/
def Obligations.RsEncMakesACodeword : Prop := ∀ s : State, BlockOk s.cfg →
  ∃ blk gen : Poly, exec .rsEnc s = .next (completed .ok { s with blk := blk, gen := gen, rsInfo := withNparUsed s }) ∧
    (∀ j, j < s.cfg.k.toNat ∨ blockLength s.cfg ≤ j → coeff blk j = coeff s.blk j) ∧
    (∀ k < 64, coeff gen k = generatorCoeff (effectiveNpar s.cfg) k) ∧
    IsCodeword blk (blockLength s.cfg) (effectiveNpar s.cfg)

/-- 42_rs_encode.md R91: RS_SYN on the block RS_ENC has just encoded writes SYN = 0 and SYN_NZ = 0. -/
def Obligations.EncodedBlockHasZeroSyndromes : Prop := ∀ s t : State, BlockOk s.cfg → exec .rsEnc s = .next t →
  ∃ u, exec .rsSyn t = .next u ∧ (∀ i, coeff u.syn i = 0) ∧ u.rsInfo.synNz = false ∧ u.blk = t.blk

/-- 43_rs_decode.md R93, R97: RS_SYN writes `SYN[i] = R(α^i)` for i < n and 0 beyond, and SYN_NZ, and nothing else. -/
def Obligations.RsSynEvaluatesTheBlock : Prop := ∀ s : State, BlockOk s.cfg →
  ∃ (p : Poly) (nz : Bool),
    (∀ i < effectiveNpar s.cfg, coeff p i = blockValue s.blk (blockLength s.cfg) (alpha .gf256 i)) ∧
    (∀ i, effectiveNpar s.cfg ≤ i → coeff p i = 0) ∧ (nz = true ↔ ∃ i < effectiveNpar s.cfg, coeff p i ≠ 0) ∧
    exec .rsSyn s = .next (completed .ok { s with syn := p, rsInfo := { withNparUsed s with synNz := nz } })

/-- 43_rs_decode.md R94, R98: RS_BM writes a shortest locator of the syndromes: its constant term is 1, its degree is at
most L ≤ n, every discrepancy from L on is 0, and no such locator has a smaller length; all-zero syndromes give SIGMA = 1
and L = 0. It writes SIGMA, L and NPAR_USED and nothing else. (R94 gives the steps; that they find a shortest locator is
what makes them Berlekamp-Massey.) -/
def Obligations.RsBmLocatorGeneratesTheSyndromes : Prop := ∀ s : State, NparOk s.cfg →
  ∃ (c : Poly) (l : Nat), IsLocator s.syn (effectiveNpar s.cfg) c l ∧ l ≤ effectiveNpar s.cfg ∧
    (∀ (c' : Poly) (l' : Nat), IsLocator s.syn (effectiveNpar s.cfg) c' l' → l ≤ l') ∧
    ((∀ i < effectiveNpar s.cfg, coeff s.syn i = 0) → l = 0 ∧ ∀ k, coeff c k = if k = 0 then 1 else 0) ∧
    exec .rsBm s = .next (completed .ok { s with sigma := c, rsInfo := { withNparUsed s with l := .ofNat 7 l } })

/-- 43_rs_decode.md R95, R99: RS_OMEGA writes the formal derivative of σ and `Ω = (σ·S⁺) mod x^(n−1)`, and nothing
else but NPAR_USED. -/
def Obligations.RsOmegaWritesDerivativeAndEvaluator : Prop := ∀ s : State, NparOk s.cfg →
  ∃ sd om : Poly,
    (∀ i, coeff sd i = if i % 2 = 0 ∧ i ≤ 62 then coeff s.sigma (i + 1) else 0) ∧
    (∀ k, coeff om k = if k + 1 < effectiveNpar s.cfg then
      xorSum (k + 1) (fun i => product .gf256 (coeff s.sigma i) (coeff s.syn (k - i + 1))) else 0) ∧
    exec .rsOmega s = .next (completed .ok { s with sderiv := sd, omega := om, rsInfo := withNparUsed s })

/-- 43_rs_decode.md R96, R100: RS_CHIEN changes exactly the positions whose inverse element is a root of SIGMA, each by
the quotient Ω/σ' of 41_galois_field.md R78, counts them in NCORR, and writes nothing else but NPAR_USED. -/
def Obligations.RsChienCorrectsTheRoots : Prop := ∀ s : State, BlockOk s.cfg →
  let n := blockLength s.cfg
  let root (i : Nat) : Bool := polyValue s.sigma (alpha .gf256 (255 - i)) == 0
  ∃ blk : Poly,
    (∀ i < n, root i = false → coeff blk (n - 1 - i) = coeff s.blk (n - 1 - i)) ∧
    (∀ i < n, root i = true → ∃ e, e ≠ 0 ∧
      IsTableQuotient e (polyValue s.omega (alpha .gf256 (255 - i))) (polyValue s.sderiv (alpha .gf256 (255 - i))) ∧
      coeff blk (n - 1 - i) = coeff s.blk (n - 1 - i) ^^^ e) ∧
    (∀ j, n ≤ j → coeff blk j = coeff s.blk j) ∧
    exec .rsChien s = .next (completed .ok { s with
      blk := blk, rsInfo := { withNparUsed s with ncorr := .ofNat 7 ((List.range n).countP root) } })

/-- 43_rs_decode.md R101, 60_exceptions.md R126: RS_DEC leaves what RS_SYN, RS_BM, RS_OMEGA, RS_CHIEN and RS_SYN in turn
leave, early exit included, and reports RS_UNCORRECTABLE exactly when the re-check finds a nonzero syndrome. -/
def Obligations.RsDecIsItsStepsInTurn : Prop := ∀ s : State, BlockOk s.cfg →
  ∃ t1 t2 t3 t4 t5, exec .rsSyn s = .next t1 ∧ exec .rsBm t1 = .next t2 ∧ exec .rsOmega t2 = .next t3 ∧
    exec .rsChien t3 = .next t4 ∧ exec .rsSyn t4 = .next t5 ∧
    exec .rsDec s = .next (completed (if t5.rsInfo.synNz then .rsUncorrectable else .ok) t5)

/-- 43_rs_decode.md R101: RS_DEC ends with OK exactly when the block it leaves is a codeword, and otherwise with
RS_UNCORRECTABLE; a block that is a codeword already is left unchanged, with L = NCORR = 0. -/
def Obligations.RsDecSucceedsExactlyOnCodewords : Prop := ∀ s : State, BlockOk s.cfg →
  ∃ t, exec .rsDec s = .next t ∧
    (IsCodeword t.blk (blockLength s.cfg) (effectiveNpar s.cfg) → t.errcode = .ok ∧ t.rsInfo.synNz = false) ∧
    (¬ IsCodeword t.blk (blockLength s.cfg) (effectiveNpar s.cfg) →
      t.errcode = .rsUncorrectable ∧ t.rsInfo.synNz = true) ∧
    (IsCodeword s.blk (blockLength s.cfg) (effectiveNpar s.cfg) →
      t.blk = s.blk ∧ t.rsInfo.l = 0 ∧ t.rsInfo.ncorr = 0)

/-- 43_rs_decode.md R102, for e = 1: a codeword with one byte changed, anywhere in the block, is restored, for every
NPAR ≥ 2, with NCORR = L = 1 and no error. (R102 marks this guarantee as general knowledge, log entry 14.) -/
def Obligations.RsDecCorrectsOneByteError : Prop := ∀ (s : State) (p : Nat) (e : Byte), BlockOk s.cfg →
  2 ≤ effectiveNpar s.cfg → p < blockLength s.cfg → e ≠ 0 →
  IsCodeword s.blk (blockLength s.cfg) (effectiveNpar s.cfg) →
    ∃ t, exec .rsDec { s with blk := setCoeff s.blk p (coeff s.blk p ^^^ e) } = .next t ∧
      t.blk = s.blk ∧ t.errcode = .ok ∧ t.rsInfo.l = 1 ∧ t.rsInfo.ncorr = 1 ∧ t.rsInfo.synNz = false

/-- 43_rs_decode.md R102: a codeword with at most half of NPAR bytes changed, anywhere in the block, is restored, with
NCORR and L the number of bytes that were changed and no error. (R102 marks this guarantee as general knowledge, log
entry 14.) -/
def Obligations.RsDecCorrectsHalfTheParity : Prop := ∀ (s : State) (received : Poly), BlockOk s.cfg →
  IsCodeword s.blk (blockLength s.cfg) (effectiveNpar s.cfg) →
  (∀ j, blockLength s.cfg ≤ j → coeff received j = coeff s.blk j) →
  let errors := (List.range (blockLength s.cfg)).countP (fun j => coeff received j != coeff s.blk j)
  2 * errors ≤ effectiveNpar s.cfg →
    ∃ t, exec .rsDec { s with blk := received } = .next t ∧
      t.blk = s.blk ∧ t.errcode = .ok ∧ t.rsInfo.l.toNat = errors ∧ t.rsInfo.ncorr.toNat = errors ∧
      t.rsInfo.synNz = false

/-- 10_state.md R34, 60_exceptions.md R127, 70_reset_and_hazards.md R128: a step that handles the loss and return of power,
or the release of the reset input, leaves the reset values; so does the assertion of an asynchronous input, while a
synchronous one changes only its level; a clock cycle with the input asserted leaves the reset values; and a release of an
input that is not asserted changes nothing. (The power event is the model's reading, log entry 7; when the reset takes
effect, and that every pulse resets, however short, are its choices, log entries 5, 6 and 24.) -/
def Obligations.ResetEventsLeaveTheResetValues : Prop := ∀ (s : State) (rest : List Event),
  (s.agenda = .powerCycle :: rest →
    ∃ t, step s = .next t ∧ AtResetValues t ∧ t.resetPin = s.resetPin ∧ t.agenda = rest) ∧
  (s.agenda = .resetInput false :: rest → s.resetPin = true →
    ∃ t, step s = .next t ∧ AtResetValues t ∧ t.resetPin = false ∧ t.agenda = rest) ∧
  (s.agenda = .resetInput true :: rest →
    ∃ t, step s = .next t ∧ t.resetPin = true ∧ t.agenda = rest ∧
      if Config.resetSynchronous then t = { s with resetPin := true, agenda := rest } else AtResetValues t) ∧
  (∀ fin, s.agenda = .cycle fin :: rest → s.resetPin = true →
    ∃ t, step s = .next t ∧ AtResetValues t ∧ t.resetPin = true ∧ t.agenda = rest) ∧
  (s.agenda = .resetInput false :: rest → s.resetPin = false → step s = .next { s with agenda := rest })
end

