-- ==== Sys2Proof/Laws/Encoding.lean ====
section
/-! SUPPORT. The bits of a command word and of its ARG (30_encoding.md R53, R54). -/

namespace Sys2Proof

/-- Bit k of a command word comes from OP, F, the reserved zeros or ARG by its place. -/
theorem commandWord_getLsbD (op : Byte) (f : BitVec 1) (arg : BitVec 16) (k : Nat) :
    (commandWord op f arg).getLsbD k =
      if k < 8 then op.getLsbD k
      else if k < 9 then f.getLsbD (k - 8)
      else if k < 16 then false else arg.getLsbD (k - 16) := by
  have h1 : (commandWord op f arg).getLsbD k = (arg ++ (0#7 ++ (f ++ op) : BitVec 16)).getLsbD k := rfl
  have h2 : (0#7 ++ (f ++ op) : BitVec 16).getLsbD k = (0#7 ++ (f ++ op : BitVec 9)).getLsbD k := rfl
  rw [h1, BitVec.getLsbD_append, h2, BitVec.getLsbD_append, BitVec.getLsbD_append]
  split_ifs <;> first | rfl | omega | simp

theorem argAB_getLsbD (b a : Byte) (k : Nat) :
    (b ++ a : BitVec 16).getLsbD k = if k < 8 then a.getLsbD k else b.getLsbD (k - 8) :=
  BitVec.getLsbD_append

theorem argPayload_getLsbD (p : BitVec 5) (k : Nat) :
    (0#11 ++ p : BitVec 16).getLsbD k = if k < 5 then p.getLsbD k else false := by
  have h : (0#11 ++ p : BitVec 16).getLsbD k = (0#11 ++ p).getLsbD k := rfl
  rw [h, BitVec.getLsbD_append]
  split <;> simp

theorem argObs_getLsbD (o : BitVec 15) (k : Nat) :
    (0#1 ++ o : BitVec 16).getLsbD k = if k < 15 then o.getLsbD k else false := by
  have h : (0#1 ++ o : BitVec 16).getLsbD k = (0#1 ++ o).getLsbD k := rfl
  rw [h, BitVec.getLsbD_append]
  split <;> simp

theorem argSym_getLsbD (v e : BitVec 3) (k : Nat) :
    (Instr.symLookup v e).arg.getLsbD k =
      if k < 3 then v.getLsbD k else if k < 4 then false else if k < 7 then e.getLsbD (k - 4) else false := by
  have h1 : (Instr.symLookup v e).arg.getLsbD k = (0#9 ++ (e ++ (0#1 ++ v) : BitVec 7)).getLsbD k := rfl
  have h2 : (e ++ (0#1 ++ v) : BitVec 7).getLsbD k = (e ++ (0#1 ++ v : BitVec 4)).getLsbD k := rfl
  rw [h1, BitVec.getLsbD_append, h2, BitVec.getLsbD_append, BitVec.getLsbD_append]
  split_ifs <;> first | rfl | omega | simp

theorem commandWord_getElem (op : Byte) (f : BitVec 1) (arg : BitVec 16) (k : Nat) (h : k < 32) :
    (commandWord op f arg)[k] =
      if k < 8 then op.getLsbD k
      else if k < 9 then f.getLsbD (k - 8)
      else if k < 16 then false else arg.getLsbD (k - 16) := by
  rw [← BitVec.getLsbD_eq_getElem]
  exact commandWord_getLsbD op f arg k

theorem argAB_getElem (b a : Byte) (k : Nat) (h : k < 16) :
    (b ++ a : BitVec 16)[k] = if k < 8 then a.getLsbD k else b.getLsbD (k - 8) := by
  rw [← BitVec.getLsbD_eq_getElem]
  exact argAB_getLsbD b a k

theorem argPayload_getElem (p : BitVec 5) (k : Nat) (h : k < 16) :
    (0#11 ++ p : BitVec 16)[k] = if k < 5 then p.getLsbD k else false := by
  rw [← BitVec.getLsbD_eq_getElem]
  exact argPayload_getLsbD p k

theorem argObs_getElem (o : BitVec 15) (k : Nat) (h : k < 16) :
    (0#1 ++ o : BitVec 16)[k] = if k < 15 then o.getLsbD k else false := by
  rw [← BitVec.getLsbD_eq_getElem]
  exact argObs_getLsbD o k

theorem argSym_getElem (v e : BitVec 3) (k : Nat) (h : k < 16) :
    (Instr.symLookup v e).arg[k] =
      if k < 3 then v.getLsbD k else if k < 4 then false else if k < 7 then e.getLsbD (k - 4) else false := by
  rw [← BitVec.getLsbD_eq_getElem]
  exact argSym_getLsbD v e k

/-- A word is known by its 32 bits. -/
theorem word_ext {v w : Word} (h : ∀ k : Fin 32, v.getLsbD k = w.getLsbD k) : v = w :=
  BitVec.eq_of_getLsbD_eq fun k hk => h ⟨k, hk⟩

end Sys2Proof
end

