-- ==== Sys2Proof/Laws/Loops.lean ====
section
/-! SUPPORT. Laws of the loop `forUp` and of indexed reads and writes of a buffer (00_scope.md R10). -/

namespace Sys2Proof.Machine

@[simp] theorem forUp_zero {σ : Type} (body : Nat → σ → σ) (s : σ) : forUp 0 body s = s := rfl

theorem forUp_succ {σ : Type} (n : Nat) (body : Nat → σ → σ) (s : σ) :
    forUp (n + 1) body s = body n (forUp n body s) := rfl

/-- The induction of every loop, once: what holds at the start and is kept by each round holds at the end. -/
theorem forUp_invariant {σ : Type} {n : Nat} {body : Nat → σ → σ} {s : σ} (motive : Nat → σ → Prop)
    (start : motive 0 s) (round : ∀ i < n, ∀ t, motive i t → motive (i + 1) (body i t)) :
    motive n (forUp n body s) := by
  induction n with
  | zero => exact start
  | succ n ih => exact round n (Nat.lt_succ_self n) _ (ih fun i hi => round i (Nat.lt_succ_of_lt hi))

/-- A loop whose rounds agree on the values that occur gives the same result. -/
theorem forUp_congr {σ : Type} {n : Nat} {f g : Nat → σ → σ} (s : σ) (h : ∀ i < n, ∀ t, f i t = g i t) :
    forUp n f s = forUp n g s := by
  induction n with
  | zero => rfl
  | succ n ih =>
    rw [forUp_succ, forUp_succ, ih fun i hi => h i (Nat.lt_succ_of_lt hi)]
    exact h n (Nat.lt_succ_self n) _

/-- A loop whose rounds leave a view of the value alone leaves it alone. -/
theorem forUp_frame {σ α : Type} {n : Nat} {body : Nat → σ → σ} {s : σ} (view : σ → α)
    (h : ∀ i < n, ∀ t, view (body i t) = view t) : view (forUp n body s) = view s := by
  induction n with
  | zero => rfl
  | succ n ih =>
    rw [forUp_succ, h n (Nat.lt_succ_self n), ih fun i hi => h i (Nat.lt_succ_of_lt hi)]

theorem coeff_setCoeff (p : Poly) (i j : Nat) (v : Byte) :
    coeff (setCoeff p i v) j = if j = i ∧ i < 64 then v else coeff p j := by
  unfold coeff setCoeff
  rw [Vector.getElem?_setIfInBounds]
  split <;> rename_i h
  · subst h
    split <;> rename_i h'
    · simp [h']
    · simp [h']
  · simp [Ne.symm h]

@[simp] theorem coeff_setCoeff_self {i : Nat} (p : Poly) (v : Byte) (h : i < 64) : coeff (setCoeff p i v) i = v := by
  simp [coeff_setCoeff, h]

@[simp] theorem coeff_setCoeff_ne {i j : Nat} (p : Poly) (v : Byte) (h : j ≠ i) :
    coeff (setCoeff p i v) j = coeff p j := by
  simp [coeff_setCoeff, h]

@[simp] theorem coeff_zeroPoly (i : Nat) : coeff zeroPoly i = 0 := by
  unfold coeff zeroPoly
  rw [Vector.getElem?_replicate]
  split <;> rfl

theorem coeff_onePoly (i : Nat) : coeff onePoly i = if i = 0 then 1 else 0 := by
  simp [onePoly, coeff_setCoeff]

/-- Past its 64 bytes a buffer reads 0. -/
theorem coeff_of_ge {i : Nat} (p : Poly) (h : 64 ≤ i) : coeff p i = 0 := by
  simp [coeff, Vector.getElem?_eq_none h]

/-- A write past the 64 bytes of a buffer changes nothing. -/
theorem setCoeff_of_ge {i : Nat} (p : Poly) (v : Byte) (h : 64 ≤ i) : setCoeff p i v = p :=
  Vector.setIfInBounds_eq_of_size_le h

/-- Two buffers with the same 64 bytes are equal. -/
theorem poly_ext {p q : Poly} (h : ∀ i < 64, coeff p i = coeff q i) : p = q := by
  refine Vector.ext fun i hi => ?_
  have := h i hi
  simpa [coeff, Vector.getElem?_eq_getElem hi] using this

/-- Writing back the byte that stands there changes nothing. -/
@[simp] theorem setCoeff_coeff (p : Poly) (i : Nat) : setCoeff p i (coeff p i) = p := by
  apply poly_ext
  intro j _
  rw [coeff_setCoeff]
  split <;> simp_all

end Sys2Proof.Machine
end

