-- ==== Sys2Proof/Laws/State.lean ====
section
/-! SUPPORT. What each shared update of the state does to each field: one lemma per field per update, each true by
definition, so that no later proof unfolds a record update. -/

namespace Sys2Proof.Machine

@[simp] theorem complete_ie (err : ErrCode) (s : State) : (complete err s).ie = s.ie := rfl
@[simp] theorem complete_done (err : ErrCode) (s : State) : (complete err s).done = true := rfl
@[simp] theorem complete_busyAcc (err : ErrCode) (s : State) : (complete err s).busyAcc = s.busyAcc := rfl
@[simp] theorem complete_cmdOvf (err : ErrCode) (s : State) : (complete err s).cmdOvf = s.cmdOvf := rfl
@[simp] theorem complete_errcode (err : ErrCode) (s : State) : (complete err s).errcode = err := rfl
@[simp] theorem complete_lastOp (err : ErrCode) (s : State) : (complete err s).lastOp = s.lastOp := rfl
@[simp] theorem complete_cmdLast (err : ErrCode) (s : State) : (complete err s).cmdLast = s.cmdLast := rfl
@[simp] theorem complete_cfg (err : ErrCode) (s : State) : (complete err s).cfg = s.cfg := rfl
@[simp] theorem complete_result (err : ErrCode) (s : State) : (complete err s).result = s.result := rfl
@[simp] theorem complete_rsInfo (err : ErrCode) (s : State) : (complete err s).rsInfo = s.rsInfo := rfl
@[simp] theorem complete_blk (err : ErrCode) (s : State) : (complete err s).blk = s.blk := rfl
@[simp] theorem complete_syn (err : ErrCode) (s : State) : (complete err s).syn = s.syn := rfl
@[simp] theorem complete_sigma (err : ErrCode) (s : State) : (complete err s).sigma = s.sigma := rfl
@[simp] theorem complete_sderiv (err : ErrCode) (s : State) : (complete err s).sderiv = s.sderiv := rfl
@[simp] theorem complete_omega (err : ErrCode) (s : State) : (complete err s).omega = s.omega := rfl
@[simp] theorem complete_gen (err : ErrCode) (s : State) : (complete err s).gen = s.gen := rfl
@[simp] theorem complete_phase (err : ErrCode) (s : State) : (complete err s).phase = .idle := rfl
@[simp] theorem complete_resetPin (err : ErrCode) (s : State) : (complete err s).resetPin = s.resetPin := rfl
@[simp] theorem complete_busyCycles (err : ErrCode) (s : State) : (complete err s).busyCycles = 0 := rfl
@[simp] theorem complete_response (err : ErrCode) (s : State) : (complete err s).response = s.response := rfl
@[simp] theorem complete_agenda (err : ErrCode) (s : State) : (complete err s).agenda = s.agenda := rfl

@[simp] theorem accept_ie (w : Word) (s : State) : (accept w s).ie = s.ie := rfl
@[simp] theorem accept_done (w : Word) (s : State) : (accept w s).done = false := rfl
@[simp] theorem accept_busyAcc (w : Word) (s : State) : (accept w s).busyAcc = s.busyAcc := rfl
@[simp] theorem accept_cmdOvf (w : Word) (s : State) : (accept w s).cmdOvf = s.cmdOvf := rfl
@[simp] theorem accept_errcode (w : Word) (s : State) : (accept w s).errcode = .ok := rfl
@[simp] theorem accept_lastOp (w : Word) (s : State) : (accept w s).lastOp = w.extractLsb' 0 8 := rfl
@[simp] theorem accept_cmdLast (w : Word) (s : State) : (accept w s).cmdLast = w := rfl
@[simp] theorem accept_cfg (w : Word) (s : State) : (accept w s).cfg = s.cfg := rfl
@[simp] theorem accept_result (w : Word) (s : State) : (accept w s).result = s.result := rfl
@[simp] theorem accept_rsInfo (w : Word) (s : State) : (accept w s).rsInfo = s.rsInfo := rfl
@[simp] theorem accept_blk (w : Word) (s : State) : (accept w s).blk = s.blk := rfl
@[simp] theorem accept_syn (w : Word) (s : State) : (accept w s).syn = s.syn := rfl
@[simp] theorem accept_sigma (w : Word) (s : State) : (accept w s).sigma = s.sigma := rfl
@[simp] theorem accept_sderiv (w : Word) (s : State) : (accept w s).sderiv = s.sderiv := rfl
@[simp] theorem accept_omega (w : Word) (s : State) : (accept w s).omega = s.omega := rfl
@[simp] theorem accept_gen (w : Word) (s : State) : (accept w s).gen = s.gen := rfl
@[simp] theorem accept_phase (w : Word) (s : State) : (accept w s).phase = .busy := rfl
@[simp] theorem accept_resetPin (w : Word) (s : State) : (accept w s).resetPin = s.resetPin := rfl
@[simp] theorem accept_busyCycles (w : Word) (s : State) : (accept w s).busyCycles = 0 := rfl
@[simp] theorem accept_response (w : Word) (s : State) : (accept w s).response = s.response := rfl
@[simp] theorem accept_agenda (w : Word) (s : State) : (accept w s).agenda = s.agenda := rfl

@[simp] theorem respond_ie (e : Bool) (d : Option Word) (s : State) : (respond e d s).ie = s.ie := rfl
@[simp] theorem respond_done (e : Bool) (d : Option Word) (s : State) : (respond e d s).done = s.done := rfl
@[simp] theorem respond_busyAcc (e : Bool) (d : Option Word) (s : State) : (respond e d s).busyAcc = s.busyAcc := rfl
@[simp] theorem respond_cmdOvf (e : Bool) (d : Option Word) (s : State) : (respond e d s).cmdOvf = s.cmdOvf := rfl
@[simp] theorem respond_errcode (e : Bool) (d : Option Word) (s : State) : (respond e d s).errcode = s.errcode := rfl
@[simp] theorem respond_lastOp (e : Bool) (d : Option Word) (s : State) : (respond e d s).lastOp = s.lastOp := rfl
@[simp] theorem respond_cmdLast (e : Bool) (d : Option Word) (s : State) : (respond e d s).cmdLast = s.cmdLast := rfl
@[simp] theorem respond_cfg (e : Bool) (d : Option Word) (s : State) : (respond e d s).cfg = s.cfg := rfl
@[simp] theorem respond_result (e : Bool) (d : Option Word) (s : State) : (respond e d s).result = s.result := rfl
@[simp] theorem respond_rsInfo (e : Bool) (d : Option Word) (s : State) : (respond e d s).rsInfo = s.rsInfo := rfl
@[simp] theorem respond_blk (e : Bool) (d : Option Word) (s : State) : (respond e d s).blk = s.blk := rfl
@[simp] theorem respond_syn (e : Bool) (d : Option Word) (s : State) : (respond e d s).syn = s.syn := rfl
@[simp] theorem respond_sigma (e : Bool) (d : Option Word) (s : State) : (respond e d s).sigma = s.sigma := rfl
@[simp] theorem respond_sderiv (e : Bool) (d : Option Word) (s : State) : (respond e d s).sderiv = s.sderiv := rfl
@[simp] theorem respond_omega (e : Bool) (d : Option Word) (s : State) : (respond e d s).omega = s.omega := rfl
@[simp] theorem respond_gen (e : Bool) (d : Option Word) (s : State) : (respond e d s).gen = s.gen := rfl
@[simp] theorem respond_phase (e : Bool) (d : Option Word) (s : State) : (respond e d s).phase = s.phase := rfl
@[simp] theorem respond_resetPin (e : Bool) (d : Option Word) (s : State) : (respond e d s).resetPin = s.resetPin := rfl
@[simp] theorem respond_busyCycles (e : Bool) (d : Option Word) (s : State) : (respond e d s).busyCycles = s.busyCycles := rfl
@[simp] theorem respond_response (e : Bool) (d : Option Word) (s : State) : (respond e d s).response = some ⟨e, d⟩ := rfl
@[simp] theorem respond_agenda (e : Bool) (d : Option Word) (s : State) : (respond e d s).agenda = s.agenda := rfl

@[simp] theorem resetEngine_ie (s : State) : (resetEngine s).ie = State.reset.ie := rfl
@[simp] theorem resetEngine_done (s : State) : (resetEngine s).done = State.reset.done := rfl
@[simp] theorem resetEngine_busyAcc (s : State) : (resetEngine s).busyAcc = State.reset.busyAcc := rfl
@[simp] theorem resetEngine_cmdOvf (s : State) : (resetEngine s).cmdOvf = State.reset.cmdOvf := rfl
@[simp] theorem resetEngine_errcode (s : State) : (resetEngine s).errcode = State.reset.errcode := rfl
@[simp] theorem resetEngine_lastOp (s : State) : (resetEngine s).lastOp = State.reset.lastOp := rfl
@[simp] theorem resetEngine_cmdLast (s : State) : (resetEngine s).cmdLast = State.reset.cmdLast := rfl
@[simp] theorem resetEngine_cfg (s : State) : (resetEngine s).cfg = State.reset.cfg := rfl
@[simp] theorem resetEngine_result (s : State) : (resetEngine s).result = State.reset.result := rfl
@[simp] theorem resetEngine_rsInfo (s : State) : (resetEngine s).rsInfo = State.reset.rsInfo := rfl
@[simp] theorem resetEngine_blk (s : State) : (resetEngine s).blk = State.reset.blk := rfl
@[simp] theorem resetEngine_syn (s : State) : (resetEngine s).syn = State.reset.syn := rfl
@[simp] theorem resetEngine_sigma (s : State) : (resetEngine s).sigma = State.reset.sigma := rfl
@[simp] theorem resetEngine_sderiv (s : State) : (resetEngine s).sderiv = State.reset.sderiv := rfl
@[simp] theorem resetEngine_omega (s : State) : (resetEngine s).omega = State.reset.omega := rfl
@[simp] theorem resetEngine_gen (s : State) : (resetEngine s).gen = State.reset.gen := rfl
@[simp] theorem resetEngine_phase (s : State) : (resetEngine s).phase = State.reset.phase := rfl
@[simp] theorem resetEngine_resetPin (s : State) : (resetEngine s).resetPin = s.resetPin := rfl
@[simp] theorem resetEngine_busyCycles (s : State) : (resetEngine s).busyCycles = State.reset.busyCycles := rfl
@[simp] theorem resetEngine_response (s : State) : (resetEngine s).response = s.response := rfl
@[simp] theorem resetEngine_agenda (s : State) : (resetEngine s).agenda = s.agenda := rfl

@[simp] theorem writeStatus_ie (v : Word) (s : State) : (writeStatus v s).ie = s.ie := rfl
@[simp] theorem writeStatus_done (v : Word) (s : State) : (writeStatus v s).done = (s.done && !v.getLsbD 1) := rfl
@[simp] theorem writeStatus_busyAcc (v : Word) (s : State) : (writeStatus v s).busyAcc = (s.busyAcc && !v.getLsbD 3) := rfl
@[simp] theorem writeStatus_cmdOvf (v : Word) (s : State) : (writeStatus v s).cmdOvf = (s.cmdOvf && !v.getLsbD 4) := rfl
@[simp] theorem writeStatus_errcode (v : Word) (s : State) : (writeStatus v s).errcode = s.errcode := rfl
@[simp] theorem writeStatus_lastOp (v : Word) (s : State) : (writeStatus v s).lastOp = s.lastOp := rfl
@[simp] theorem writeStatus_cmdLast (v : Word) (s : State) : (writeStatus v s).cmdLast = s.cmdLast := rfl
@[simp] theorem writeStatus_cfg (v : Word) (s : State) : (writeStatus v s).cfg = s.cfg := rfl
@[simp] theorem writeStatus_result (v : Word) (s : State) : (writeStatus v s).result = s.result := rfl
@[simp] theorem writeStatus_rsInfo (v : Word) (s : State) : (writeStatus v s).rsInfo = s.rsInfo := rfl
@[simp] theorem writeStatus_blk (v : Word) (s : State) : (writeStatus v s).blk = s.blk := rfl
@[simp] theorem writeStatus_syn (v : Word) (s : State) : (writeStatus v s).syn = s.syn := rfl
@[simp] theorem writeStatus_sigma (v : Word) (s : State) : (writeStatus v s).sigma = s.sigma := rfl
@[simp] theorem writeStatus_sderiv (v : Word) (s : State) : (writeStatus v s).sderiv = s.sderiv := rfl
@[simp] theorem writeStatus_omega (v : Word) (s : State) : (writeStatus v s).omega = s.omega := rfl
@[simp] theorem writeStatus_gen (v : Word) (s : State) : (writeStatus v s).gen = s.gen := rfl
@[simp] theorem writeStatus_phase (v : Word) (s : State) : (writeStatus v s).phase = s.phase := rfl
@[simp] theorem writeStatus_resetPin (v : Word) (s : State) : (writeStatus v s).resetPin = s.resetPin := rfl
@[simp] theorem writeStatus_busyCycles (v : Word) (s : State) : (writeStatus v s).busyCycles = s.busyCycles := rfl
@[simp] theorem writeStatus_response (v : Word) (s : State) : (writeStatus v s).response = s.response := rfl
@[simp] theorem writeStatus_agenda (v : Word) (s : State) : (writeStatus v s).agenda = s.agenda := rfl

@[simp] theorem setByteResult_ie (v : Byte) (s : State) : (setByteResult v s).ie = s.ie := rfl
@[simp] theorem setByteResult_done (v : Byte) (s : State) : (setByteResult v s).done = s.done := rfl
@[simp] theorem setByteResult_busyAcc (v : Byte) (s : State) : (setByteResult v s).busyAcc = s.busyAcc := rfl
@[simp] theorem setByteResult_cmdOvf (v : Byte) (s : State) : (setByteResult v s).cmdOvf = s.cmdOvf := rfl
@[simp] theorem setByteResult_errcode (v : Byte) (s : State) : (setByteResult v s).errcode = s.errcode := rfl
@[simp] theorem setByteResult_lastOp (v : Byte) (s : State) : (setByteResult v s).lastOp = s.lastOp := rfl
@[simp] theorem setByteResult_cmdLast (v : Byte) (s : State) : (setByteResult v s).cmdLast = s.cmdLast := rfl
@[simp] theorem setByteResult_cfg (v : Byte) (s : State) : (setByteResult v s).cfg = s.cfg := rfl
@[simp] theorem setByteResult_result (v : Byte) (s : State) : (setByteResult v s).result = v.setWidth 32 := rfl
@[simp] theorem setByteResult_rsInfo (v : Byte) (s : State) : (setByteResult v s).rsInfo = s.rsInfo := rfl
@[simp] theorem setByteResult_blk (v : Byte) (s : State) : (setByteResult v s).blk = s.blk := rfl
@[simp] theorem setByteResult_syn (v : Byte) (s : State) : (setByteResult v s).syn = s.syn := rfl
@[simp] theorem setByteResult_sigma (v : Byte) (s : State) : (setByteResult v s).sigma = s.sigma := rfl
@[simp] theorem setByteResult_sderiv (v : Byte) (s : State) : (setByteResult v s).sderiv = s.sderiv := rfl
@[simp] theorem setByteResult_omega (v : Byte) (s : State) : (setByteResult v s).omega = s.omega := rfl
@[simp] theorem setByteResult_gen (v : Byte) (s : State) : (setByteResult v s).gen = s.gen := rfl
@[simp] theorem setByteResult_phase (v : Byte) (s : State) : (setByteResult v s).phase = s.phase := rfl
@[simp] theorem setByteResult_resetPin (v : Byte) (s : State) : (setByteResult v s).resetPin = s.resetPin := rfl
@[simp] theorem setByteResult_busyCycles (v : Byte) (s : State) : (setByteResult v s).busyCycles = s.busyCycles := rfl
@[simp] theorem setByteResult_response (v : Byte) (s : State) : (setByteResult v s).response = s.response := rfl
@[simp] theorem setByteResult_agenda (v : Byte) (s : State) : (setByteResult v s).agenda = s.agenda := rfl

@[simp] theorem setNparUsed_ie (n : Nat) (s : State) : (setNparUsed n s).ie = s.ie := rfl
@[simp] theorem setNparUsed_done (n : Nat) (s : State) : (setNparUsed n s).done = s.done := rfl
@[simp] theorem setNparUsed_busyAcc (n : Nat) (s : State) : (setNparUsed n s).busyAcc = s.busyAcc := rfl
@[simp] theorem setNparUsed_cmdOvf (n : Nat) (s : State) : (setNparUsed n s).cmdOvf = s.cmdOvf := rfl
@[simp] theorem setNparUsed_errcode (n : Nat) (s : State) : (setNparUsed n s).errcode = s.errcode := rfl
@[simp] theorem setNparUsed_lastOp (n : Nat) (s : State) : (setNparUsed n s).lastOp = s.lastOp := rfl
@[simp] theorem setNparUsed_cmdLast (n : Nat) (s : State) : (setNparUsed n s).cmdLast = s.cmdLast := rfl
@[simp] theorem setNparUsed_cfg (n : Nat) (s : State) : (setNparUsed n s).cfg = s.cfg := rfl
@[simp] theorem setNparUsed_result (n : Nat) (s : State) : (setNparUsed n s).result = s.result := rfl
@[simp] theorem setNparUsed_rsInfo (n : Nat) (s : State) : (setNparUsed n s).rsInfo = { s.rsInfo with nparUsed := .ofNat 6 n } := rfl
@[simp] theorem setNparUsed_blk (n : Nat) (s : State) : (setNparUsed n s).blk = s.blk := rfl
@[simp] theorem setNparUsed_syn (n : Nat) (s : State) : (setNparUsed n s).syn = s.syn := rfl
@[simp] theorem setNparUsed_sigma (n : Nat) (s : State) : (setNparUsed n s).sigma = s.sigma := rfl
@[simp] theorem setNparUsed_sderiv (n : Nat) (s : State) : (setNparUsed n s).sderiv = s.sderiv := rfl
@[simp] theorem setNparUsed_omega (n : Nat) (s : State) : (setNparUsed n s).omega = s.omega := rfl
@[simp] theorem setNparUsed_gen (n : Nat) (s : State) : (setNparUsed n s).gen = s.gen := rfl
@[simp] theorem setNparUsed_phase (n : Nat) (s : State) : (setNparUsed n s).phase = s.phase := rfl
@[simp] theorem setNparUsed_resetPin (n : Nat) (s : State) : (setNparUsed n s).resetPin = s.resetPin := rfl
@[simp] theorem setNparUsed_busyCycles (n : Nat) (s : State) : (setNparUsed n s).busyCycles = s.busyCycles := rfl
@[simp] theorem setNparUsed_response (n : Nat) (s : State) : (setNparUsed n s).response = s.response := rfl
@[simp] theorem setNparUsed_agenda (n : Nat) (s : State) : (setNparUsed n s).agenda = s.agenda := rfl

@[simp] theorem setL_ie (l : Nat) (s : State) : (setL l s).ie = s.ie := rfl
@[simp] theorem setL_done (l : Nat) (s : State) : (setL l s).done = s.done := rfl
@[simp] theorem setL_busyAcc (l : Nat) (s : State) : (setL l s).busyAcc = s.busyAcc := rfl
@[simp] theorem setL_cmdOvf (l : Nat) (s : State) : (setL l s).cmdOvf = s.cmdOvf := rfl
@[simp] theorem setL_errcode (l : Nat) (s : State) : (setL l s).errcode = s.errcode := rfl
@[simp] theorem setL_lastOp (l : Nat) (s : State) : (setL l s).lastOp = s.lastOp := rfl
@[simp] theorem setL_cmdLast (l : Nat) (s : State) : (setL l s).cmdLast = s.cmdLast := rfl
@[simp] theorem setL_cfg (l : Nat) (s : State) : (setL l s).cfg = s.cfg := rfl
@[simp] theorem setL_result (l : Nat) (s : State) : (setL l s).result = s.result := rfl
@[simp] theorem setL_rsInfo (l : Nat) (s : State) : (setL l s).rsInfo = { s.rsInfo with l := .ofNat 7 l } := rfl
@[simp] theorem setL_blk (l : Nat) (s : State) : (setL l s).blk = s.blk := rfl
@[simp] theorem setL_syn (l : Nat) (s : State) : (setL l s).syn = s.syn := rfl
@[simp] theorem setL_sigma (l : Nat) (s : State) : (setL l s).sigma = s.sigma := rfl
@[simp] theorem setL_sderiv (l : Nat) (s : State) : (setL l s).sderiv = s.sderiv := rfl
@[simp] theorem setL_omega (l : Nat) (s : State) : (setL l s).omega = s.omega := rfl
@[simp] theorem setL_gen (l : Nat) (s : State) : (setL l s).gen = s.gen := rfl
@[simp] theorem setL_phase (l : Nat) (s : State) : (setL l s).phase = s.phase := rfl
@[simp] theorem setL_resetPin (l : Nat) (s : State) : (setL l s).resetPin = s.resetPin := rfl
@[simp] theorem setL_busyCycles (l : Nat) (s : State) : (setL l s).busyCycles = s.busyCycles := rfl
@[simp] theorem setL_response (l : Nat) (s : State) : (setL l s).response = s.response := rfl
@[simp] theorem setL_agenda (l : Nat) (s : State) : (setL l s).agenda = s.agenda := rfl

@[simp] theorem setNcorr_ie (c : Nat) (s : State) : (setNcorr c s).ie = s.ie := rfl
@[simp] theorem setNcorr_done (c : Nat) (s : State) : (setNcorr c s).done = s.done := rfl
@[simp] theorem setNcorr_busyAcc (c : Nat) (s : State) : (setNcorr c s).busyAcc = s.busyAcc := rfl
@[simp] theorem setNcorr_cmdOvf (c : Nat) (s : State) : (setNcorr c s).cmdOvf = s.cmdOvf := rfl
@[simp] theorem setNcorr_errcode (c : Nat) (s : State) : (setNcorr c s).errcode = s.errcode := rfl
@[simp] theorem setNcorr_lastOp (c : Nat) (s : State) : (setNcorr c s).lastOp = s.lastOp := rfl
@[simp] theorem setNcorr_cmdLast (c : Nat) (s : State) : (setNcorr c s).cmdLast = s.cmdLast := rfl
@[simp] theorem setNcorr_cfg (c : Nat) (s : State) : (setNcorr c s).cfg = s.cfg := rfl
@[simp] theorem setNcorr_result (c : Nat) (s : State) : (setNcorr c s).result = s.result := rfl
@[simp] theorem setNcorr_rsInfo (c : Nat) (s : State) : (setNcorr c s).rsInfo = { s.rsInfo with ncorr := .ofNat 7 c } := rfl
@[simp] theorem setNcorr_blk (c : Nat) (s : State) : (setNcorr c s).blk = s.blk := rfl
@[simp] theorem setNcorr_syn (c : Nat) (s : State) : (setNcorr c s).syn = s.syn := rfl
@[simp] theorem setNcorr_sigma (c : Nat) (s : State) : (setNcorr c s).sigma = s.sigma := rfl
@[simp] theorem setNcorr_sderiv (c : Nat) (s : State) : (setNcorr c s).sderiv = s.sderiv := rfl
@[simp] theorem setNcorr_omega (c : Nat) (s : State) : (setNcorr c s).omega = s.omega := rfl
@[simp] theorem setNcorr_gen (c : Nat) (s : State) : (setNcorr c s).gen = s.gen := rfl
@[simp] theorem setNcorr_phase (c : Nat) (s : State) : (setNcorr c s).phase = s.phase := rfl
@[simp] theorem setNcorr_resetPin (c : Nat) (s : State) : (setNcorr c s).resetPin = s.resetPin := rfl
@[simp] theorem setNcorr_busyCycles (c : Nat) (s : State) : (setNcorr c s).busyCycles = s.busyCycles := rfl
@[simp] theorem setNcorr_response (c : Nat) (s : State) : (setNcorr c s).response = s.response := rfl
@[simp] theorem setNcorr_agenda (c : Nat) (s : State) : (setNcorr c s).agenda = s.agenda := rfl

@[simp] theorem setSynNz_ie (nz : Bool) (s : State) : (setSynNz nz s).ie = s.ie := rfl
@[simp] theorem setSynNz_done (nz : Bool) (s : State) : (setSynNz nz s).done = s.done := rfl
@[simp] theorem setSynNz_busyAcc (nz : Bool) (s : State) : (setSynNz nz s).busyAcc = s.busyAcc := rfl
@[simp] theorem setSynNz_cmdOvf (nz : Bool) (s : State) : (setSynNz nz s).cmdOvf = s.cmdOvf := rfl
@[simp] theorem setSynNz_errcode (nz : Bool) (s : State) : (setSynNz nz s).errcode = s.errcode := rfl
@[simp] theorem setSynNz_lastOp (nz : Bool) (s : State) : (setSynNz nz s).lastOp = s.lastOp := rfl
@[simp] theorem setSynNz_cmdLast (nz : Bool) (s : State) : (setSynNz nz s).cmdLast = s.cmdLast := rfl
@[simp] theorem setSynNz_cfg (nz : Bool) (s : State) : (setSynNz nz s).cfg = s.cfg := rfl
@[simp] theorem setSynNz_result (nz : Bool) (s : State) : (setSynNz nz s).result = s.result := rfl
@[simp] theorem setSynNz_rsInfo (nz : Bool) (s : State) : (setSynNz nz s).rsInfo = { s.rsInfo with synNz := nz } := rfl
@[simp] theorem setSynNz_blk (nz : Bool) (s : State) : (setSynNz nz s).blk = s.blk := rfl
@[simp] theorem setSynNz_syn (nz : Bool) (s : State) : (setSynNz nz s).syn = s.syn := rfl
@[simp] theorem setSynNz_sigma (nz : Bool) (s : State) : (setSynNz nz s).sigma = s.sigma := rfl
@[simp] theorem setSynNz_sderiv (nz : Bool) (s : State) : (setSynNz nz s).sderiv = s.sderiv := rfl
@[simp] theorem setSynNz_omega (nz : Bool) (s : State) : (setSynNz nz s).omega = s.omega := rfl
@[simp] theorem setSynNz_gen (nz : Bool) (s : State) : (setSynNz nz s).gen = s.gen := rfl
@[simp] theorem setSynNz_phase (nz : Bool) (s : State) : (setSynNz nz s).phase = s.phase := rfl
@[simp] theorem setSynNz_resetPin (nz : Bool) (s : State) : (setSynNz nz s).resetPin = s.resetPin := rfl
@[simp] theorem setSynNz_busyCycles (nz : Bool) (s : State) : (setSynNz nz s).busyCycles = s.busyCycles := rfl
@[simp] theorem setSynNz_response (nz : Bool) (s : State) : (setSynNz nz s).response = s.response := rfl
@[simp] theorem setSynNz_agenda (nz : Bool) (s : State) : (setSynNz nz s).agenda = s.agenda := rfl

@[simp] theorem setBuf_ie (s : State) (b : Buffer) (p : Poly) : (s.setBuf b p).ie = s.ie := by cases b <;> rfl
@[simp] theorem setBuf_done (s : State) (b : Buffer) (p : Poly) : (s.setBuf b p).done = s.done := by cases b <;> rfl
@[simp] theorem setBuf_busyAcc (s : State) (b : Buffer) (p : Poly) : (s.setBuf b p).busyAcc = s.busyAcc := by cases b <;> rfl
@[simp] theorem setBuf_cmdOvf (s : State) (b : Buffer) (p : Poly) : (s.setBuf b p).cmdOvf = s.cmdOvf := by cases b <;> rfl
@[simp] theorem setBuf_errcode (s : State) (b : Buffer) (p : Poly) : (s.setBuf b p).errcode = s.errcode := by cases b <;> rfl
@[simp] theorem setBuf_lastOp (s : State) (b : Buffer) (p : Poly) : (s.setBuf b p).lastOp = s.lastOp := by cases b <;> rfl
@[simp] theorem setBuf_cmdLast (s : State) (b : Buffer) (p : Poly) : (s.setBuf b p).cmdLast = s.cmdLast := by cases b <;> rfl
@[simp] theorem setBuf_cfg (s : State) (b : Buffer) (p : Poly) : (s.setBuf b p).cfg = s.cfg := by cases b <;> rfl
@[simp] theorem setBuf_result (s : State) (b : Buffer) (p : Poly) : (s.setBuf b p).result = s.result := by cases b <;> rfl
@[simp] theorem setBuf_rsInfo (s : State) (b : Buffer) (p : Poly) : (s.setBuf b p).rsInfo = s.rsInfo := by cases b <;> rfl
@[simp] theorem setBuf_phase (s : State) (b : Buffer) (p : Poly) : (s.setBuf b p).phase = s.phase := by cases b <;> rfl
@[simp] theorem setBuf_resetPin (s : State) (b : Buffer) (p : Poly) : (s.setBuf b p).resetPin = s.resetPin := by cases b <;> rfl
@[simp] theorem setBuf_busyCycles (s : State) (b : Buffer) (p : Poly) : (s.setBuf b p).busyCycles = s.busyCycles := by cases b <;> rfl
@[simp] theorem setBuf_response (s : State) (b : Buffer) (p : Poly) : (s.setBuf b p).response = s.response := by cases b <;> rfl
@[simp] theorem setBuf_agenda (s : State) (b : Buffer) (p : Poly) : (s.setBuf b p).agenda = s.agenda := by cases b <;> rfl

@[simp] theorem setBuf_buf (s : State) (b b' : Buffer) (p : Poly) :
    (s.setBuf b p).buf b' = if b' = b then p else s.buf b' := by cases b <;> cases b' <;> rfl

/-- Two states that agree on every buffer agree on each of the six fields. -/
theorem buf_eq_iff (s t : State) : (∀ b, s.buf b = t.buf b) ↔
    s.blk = t.blk ∧ s.syn = t.syn ∧ s.sigma = t.sigma ∧ s.sderiv = t.sderiv ∧ s.omega = t.omega ∧ s.gen = t.gen := by
  constructor
  · intro h
    exact ⟨h .blk, h .syn, h .sigma, h .sderiv, h .omega, h .gen⟩
  · rintro ⟨h1, h2, h3, h4, h5, h6⟩ b
    cases b <;> assumption

end Sys2Proof.Machine
end

