-- ==== Sys2Proof/Laws/Ops.lean ====
section
/-! SUPPORT. One lemma per shared operation that says everything it can do: commands, the port, the sequencer and the
step. Later proofs cite these and do not unfold the operations. -/

namespace Sys2Proof.Machine

@[simp] theorem finish_eq (r : ErrCode × State) : finish r = .next (complete r.1 r.2) := rfl

@[simp] theorem withParams_true (body : State → ErrCode × State) (s : State) : withParams true body s = body s := rfl

@[simp] theorem withParams_false (body : State → ErrCode × State) (s : State) :
    withParams false body s = (.badParam, s) := rfl

/-- The `run(c)` of each command: what its meaning completes. -/
def runOf (i : Instr) (s : State) : ErrCode × State :=
  match i with
  | .nop => (.ok, s)
  | .rsGen => runRsGen s
  | .rsEnc => runRsEnc s
  | .rsSyn => runRsSyn s
  | .rsBm => runRsBm s
  | .rsOmega => runRsOmega s
  | .rsChien => runRsChien s
  | .rsDec => runRsDec s
  | .gfAdd f a b => runGfAdd f a b s
  | .gfMul f a b => runGfMul f a b s
  | .gfDiv f a b => runGfDiv f a b s
  | .gfExp f a => runGfExp f a s
  | .gfLog f a => runGfLog f a s
  | .fmtEnc payload => runFmtEnc payload s
  | .fmtDec obs => runFmtDec obs s
  | .symLookup version ecc => runSymLookup version ecc s

/-- Every command answers the completion of its run (40_command_execution.md R64, R66). -/
theorem exec_eq (i : Instr) (s : State) : exec i s = .next (complete (runOf i s).1 (runOf i s).2) := by
  cases i <;> rfl

/-- `t` differs from `s` at most in RESULT, RS_INFO and the buffers. -/
structure SameControl (s t : State) : Prop where
  ie : t.ie = s.ie
  done : t.done = s.done
  busyAcc : t.busyAcc = s.busyAcc
  cmdOvf : t.cmdOvf = s.cmdOvf
  errcode : t.errcode = s.errcode
  lastOp : t.lastOp = s.lastOp
  cmdLast : t.cmdLast = s.cmdLast
  cfg : t.cfg = s.cfg
  phase : t.phase = s.phase
  resetPin : t.resetPin = s.resetPin
  busyCycles : t.busyCycles = s.busyCycles
  response : t.response = s.response
  agenda : t.agenda = s.agenda

theorem SameControl.refl (s : State) : SameControl s s :=
  ⟨rfl, rfl, rfl, rfl, rfl, rfl, rfl, rfl, rfl, rfl, rfl, rfl, rfl⟩

theorem SameControl.withParams {ok : Bool} {body : State → ErrCode × State} {s : State}
    (h : SameControl s (body s).2) : SameControl s (withParams ok body s).2 := by
  cases ok
  · exact .refl s
  · exact h

theorem sameControl_genBody (s : State) : SameControl s (genBody s) :=
  ⟨rfl, rfl, rfl, rfl, rfl, rfl, rfl, rfl, rfl, rfl, rfl, rfl, rfl⟩

theorem sameControl_synBody (s : State) : SameControl s (synBody s) :=
  ⟨rfl, rfl, rfl, rfl, rfl, rfl, rfl, rfl, rfl, rfl, rfl, rfl, rfl⟩

theorem sameControl_bmBody (s : State) : SameControl s (bmBody s) :=
  ⟨rfl, rfl, rfl, rfl, rfl, rfl, rfl, rfl, rfl, rfl, rfl, rfl, rfl⟩

theorem sameControl_omega (sd om : Poly) (s : State) : SameControl s { s with sderiv := sd, omega := om } :=
  ⟨rfl, rfl, rfl, rfl, rfl, rfl, rfl, rfl, rfl, rfl, rfl, rfl, rfl⟩

theorem sameControl_omegaBody (s : State) : SameControl s (omegaBody s) := sameControl_omega _ _ s

theorem sameControl_chienBody (s : State) : SameControl s (chienBody s) :=
  ⟨rfl, rfl, rfl, rfl, rfl, rfl, rfl, rfl, rfl, rfl, rfl, rfl, rfl⟩

theorem sameControl_cleanBody (s : State) : SameControl s (cleanBody s) :=
  ⟨rfl, rfl, rfl, rfl, rfl, rfl, rfl, rfl, rfl, rfl, rfl, rfl, rfl⟩

theorem sameControl_setNparUsed (n : Nat) (s : State) : SameControl s (setNparUsed n s) :=
  ⟨rfl, rfl, rfl, rfl, rfl, rfl, rfl, rfl, rfl, rfl, rfl, rfl, rfl⟩

theorem sameControl_result (r : Word) (s : State) : SameControl s { s with result := r } :=
  ⟨rfl, rfl, rfl, rfl, rfl, rfl, rfl, rfl, rfl, rfl, rfl, rfl, rfl⟩

theorem sameControl_blk (p : Poly) (s : State) : SameControl s { s with blk := p } :=
  ⟨rfl, rfl, rfl, rfl, rfl, rfl, rfl, rfl, rfl, rfl, rfl, rfl, rfl⟩

theorem SameControl.trans {s t u : State} (h : SameControl s t) (h' : SameControl t u) : SameControl s u where
  ie := h'.ie.trans h.ie
  done := h'.done.trans h.done
  busyAcc := h'.busyAcc.trans h.busyAcc
  cmdOvf := h'.cmdOvf.trans h.cmdOvf
  errcode := h'.errcode.trans h.errcode
  lastOp := h'.lastOp.trans h.lastOp
  cmdLast := h'.cmdLast.trans h.cmdLast
  cfg := h'.cfg.trans h.cfg
  phase := h'.phase.trans h.phase
  resetPin := h'.resetPin.trans h.resetPin
  busyCycles := h'.busyCycles.trans h.busyCycles
  response := h'.response.trans h.response
  agenda := h'.agenda.trans h.agenda

/-- No command's run touches anything but RESULT, RS_INFO and the buffers (10_state.md R26). -/
theorem runOf_sameControl (i : Instr) (s : State) : SameControl s (runOf i s).2 := by
  cases i with
  | nop => exact .refl s
  | rsGen => exact .withParams (sameControl_genBody s)
  | rsEnc => exact .withParams ((sameControl_genBody s).trans (sameControl_blk _ _))
  | rsSyn => exact .withParams ((sameControl_synBody s).trans (sameControl_setNparUsed _ _))
  | rsBm => exact .withParams ((sameControl_bmBody s).trans (sameControl_setNparUsed _ _))
  | rsOmega =>
    have h := (sameControl_omegaBody s).trans (sameControl_setNparUsed s.cfg.nparEff _)
    simp only [runOf, runRsOmega]
    exact .withParams h
  | rsChien => exact .withParams ((sameControl_chienBody s).trans (sameControl_setNparUsed _ _))
  | rsDec =>
    refine .withParams ?_
    have h := (sameControl_setNparUsed s.cfg.nparEff s).trans (sameControl_synBody _)
    dsimp only
    split
    · exact (((h.trans (sameControl_bmBody _)).trans (sameControl_omegaBody _)).trans
        (sameControl_chienBody _)).trans (sameControl_synBody _)
    · exact h.trans (sameControl_cleanBody _)
  | gfAdd f a b => simp only [runOf, runGfAdd]; split; exacts [sameControl_result _ _, .refl s]
  | gfMul f a b => simp only [runOf, runGfMul]; split; exacts [sameControl_result _ _, .refl s]
  | gfDiv f a b =>
    simp only [runOf, runGfDiv]; repeat' split
    exacts [.refl s, sameControl_result _ _, .refl s]
  | gfExp f a => exact sameControl_result _ _
  | gfLog f a =>
    simp only [runOf, runGfLog]; repeat' split
    exacts [.refl s, sameControl_result _ _, .refl s]
  | fmtEnc p => exact sameControl_result _ _
  | fmtDec o => exact sameControl_result _ _
  | symLookup v e => simp only [runOf, runSymLookup]; split; exacts [sameControl_result _ _, .refl s]

/-- The completion step of the running command is its run, or ILLEGAL_CMD on the state as it stands. -/
theorem runCommand_eq (s : State) : runCommand s = .next (match decode s.cmdLast with
    | .command i => complete (runOf i s).1 (runOf i s).2
    | .illegal _ => complete .illegalCmd s) := by
  unfold runCommand
  cases decode s.cmdLast with
  | command i => exact exec_eq i s
  | illegal why => rfl

/-- A clock cycle resets a held engine, changes nothing, completes the running command, or counts. -/
theorem clockCycle_cases (fin : Bool) (s : State) :
    (clockCycle fin s = .next (resetEngine s) ∧ s.resetPin = true) ∨
    (clockCycle fin s = .next s ∧ s.resetPin = false ∧ s.phase = .idle) ∨
    (clockCycle fin s = runCommand s ∧ s.resetPin = false ∧ s.phase = .busy ∧
      (fin = true ∨ Config.cmdLatency (opField s.cmdLast) ≤ s.busyCycles + 1)) ∨
    (clockCycle fin s = .next { s with busyCycles := s.busyCycles + 1 } ∧ s.resetPin = false ∧ s.phase = .busy ∧
      fin = false ∧ s.busyCycles + 1 < Config.cmdLatency (opField s.cmdLast)) := by
  unfold clockCycle
  split
  · exact .inl ⟨rfl, ‹_›⟩
  · rename_i hr
    simp only [Bool.not_eq_true] at hr
    split
    · exact .inr (.inl ⟨rfl, hr, ‹_›⟩)
    · rename_i hi
      have hb : s.phase = .busy := by cases hp : s.phase <;> simp_all
      split
      · rename_i h'
        exact .inr (.inr (.inl ⟨rfl, hr, hb, by simpa [mustFinish] using h'⟩))
      · rename_i h'
        exact .inr (.inr (.inr ⟨rfl, hr, hb, by simpa [mustFinish] using h'⟩))

/-- Everything the port can do with an access. -/
theorem portAccess_cases (a : Access) (s : State) :
    (portAccess a s = respond false a.zeroData s ∧ s.resetPin = true) ∨
    (portAccess a s = respond true a.zeroData s ∧ s.resetPin = false ∧ a.supported = false) ∨
    (portAccess a s = respond false a.zeroData { s with busyAcc := true } ∧ s.resetPin = false ∧ a.supported = true ∧
      (targetOf a.off).groupB = true ∧ s.phase = .busy) ∨
    (s.resetPin = false ∧ a.supported = true ∧ ((targetOf a.off).groupB = true → s.phase = .idle) ∧
      ((∃ off, a = .read .word off ∧ portAccess a s = respond false (some (readTarget (targetOf off) s)) s) ∨
       (∃ off v, a = .write .word off v ∧ portAccess a s = respond false none (writeTarget (targetOf off) v s)))) := by
  unfold portAccess
  split
  · exact .inl ⟨rfl, ‹_›⟩
  · rename_i hr
    simp only [Bool.not_eq_true] at hr
    split
    · rename_i hsup
      unfold busAccess
      split
      · rename_i hbl
        simp only [Target.blocked, State.busyFlag, Bool.and_eq_true, beq_iff_eq] at hbl
        exact .inr (.inr (.inl ⟨rfl, hr, hsup, hbl.1, hbl.2⟩))
      · rename_i hbl
        have hidle : (targetOf a.off).groupB = true → s.phase = .idle := by
          intro hg
          simp only [Target.blocked, State.busyFlag, hg, Bool.true_and, beq_iff_eq] at hbl
          cases hp : s.phase <;> simp_all
        refine .inr (.inr (.inr ⟨hr, hsup, hidle, ?_⟩))
        cases a with
        | read w off =>
          have : w = .word := by cases w <;> simp_all [Access.supported, Access.width]
          subst this
          exact .inl ⟨off, rfl, rfl⟩
        | write w off v =>
          have : w = .word := by cases w <;> simp_all [Access.supported, Access.width]
          subst this
          exact .inr ⟨off, v, rfl, rfl⟩
    · rename_i hsup
      simp only [Bool.not_eq_true] at hsup
      exact .inr (.inl ⟨rfl, hr, hsup⟩)

/-- The reset input's event raises a synchronous input, resets the engine, or leaves the state alone. -/
theorem driveResetInput_cases (asserted : Bool) (s : State) :
    (driveResetInput asserted s = { s with resetPin := true } ∧ asserted = true ∧ Config.resetSynchronous = true) ∨
    (driveResetInput asserted s = resetEngine { s with resetPin := asserted } ∧
      (asserted = true ∧ Config.resetSynchronous = false ∨ asserted = false ∧ s.resetPin = true)) ∨
    (driveResetInput asserted s = s ∧ asserted = false ∧ s.resetPin = false) := by
  cases asserted <;> cases hs : Config.resetSynchronous <;> cases hp : s.resetPin <;> simp [driveResetInput, hs, hp]

/-- The level of the input is the level driven (70_reset_and_hazards.md R128). -/
@[simp] theorem driveResetInput_resetPin (asserted : Bool) (s : State) :
    (driveResetInput asserted s).resetPin = asserted := by
  rcases driveResetInput_cases asserted s with ⟨h, ha, _⟩ | ⟨h, _⟩ | ⟨h, ha, hp⟩
  · rw [h, ha]
  · rw [h]; rfl
  · rw [h, ha, hp]

/-- Everything a step can do: the next event's effect, or a completing cycle when none is pending. -/
theorem step_cases (s : State) :
    (s.agenda = [] ∧ step s = clockCycle true s) ∨
    (∃ a rest, s.agenda = .access a :: rest ∧ step s = .next (portAccess a { s with agenda := rest })) ∨
    (∃ fin rest, s.agenda = .cycle fin :: rest ∧ step s = clockCycle fin { s with agenda := rest }) ∨
    (∃ lvl rest, s.agenda = .resetInput lvl :: rest ∧ step s = .next (driveResetInput lvl { s with agenda := rest })) ∨
    (∃ rest, s.agenda = .powerCycle :: rest ∧ step s = .next (resetEngine { s with agenda := rest })) := by
  unfold step
  cases h : s.agenda with
  | nil => exact .inl ⟨rfl, rfl⟩
  | cons e rest =>
    cases e with
    | access a => exact .inr (.inl ⟨a, rest, rfl, rfl⟩)
    | cycle fin => exact .inr (.inr (.inl ⟨fin, rest, rfl, rfl⟩))
    | resetInput lvl => exact .inr (.inr (.inr (.inl ⟨lvl, rest, rfl, rfl⟩)))
    | powerCycle => exact .inr (.inr (.inr (.inr ⟨rest, rfl, rfl⟩)))

/-- A view of the state that no step of a kind changes is the same along any run: an invariant's induction, once. -/
theorem reachable_induction {motive : State → Prop} (start : ∀ agenda, motive { State.reset with agenda := agenda })
    (kept : ∀ s t, motive s → step s = .next t → motive t) {s : State} (h : Safety.Reachable s) : motive s := by
  induction h with
  | start agenda => exact start agenda
  | step s t _ hst ih => exact kept s t ih hst

end Sys2Proof.Machine
end

