-- ==== Sys2Proof/Laws/PerInstr.lean ====
section
/-! SUPPORT. Statements made per command: the family EncodesItsRow says that a command's word has its opcode-map row's
fixed bits (30_encoding.md R55). -/

namespace Sys2Proof.Laws.EncodesItsRow

/-- The row of the opcode map for each command, by its opcode (30_encoding.md R55). -/
def rowFixed : Instr → Word × Word
  | .nop => (0x00000000, 0xFFFFFFFF)
  | .rsGen => (0x00000001, 0xFFFFFFFF)
  | .rsEnc => (0x00000002, 0xFFFFFFFF)
  | .rsSyn => (0x00000003, 0xFFFFFFFF)
  | .rsBm => (0x00000004, 0xFFFFFFFF)
  | .rsOmega => (0x00000005, 0xFFFFFFFF)
  | .rsChien => (0x00000006, 0xFFFFFFFF)
  | .rsDec => (0x00000007, 0xFFFFFFFF)
  | .gfAdd .. => (0x00000010, 0x0000FEFF)
  | .gfMul .. => (0x00000011, 0x0000FEFF)
  | .gfDiv .. => (0x00000012, 0x0000FEFF)
  | .gfExp .. => (0x00000013, 0xFF00FEFF)
  | .gfLog .. => (0x00000014, 0xFF00FEFF)
  | .fmtEnc _ => (0x00000020, 0xFFE0FFFF)
  | .fmtDec _ => (0x00000021, 0x8000FFFF)
  | .symLookup .. => (0x00000022, 0xFF88FFFF)

/-- The command's word has its row's fixed bits. -/
def Statement (i : Instr) : Prop := encode i &&& (rowFixed i).2 = (rowFixed i).1

theorem nop : Statement .nop := by unfold Statement; decide
theorem rsGen : Statement .rsGen := by unfold Statement; decide
theorem rsEnc : Statement .rsEnc := by unfold Statement; decide
theorem rsSyn : Statement .rsSyn := by unfold Statement; decide
theorem rsBm : Statement .rsBm := by unfold Statement; decide
theorem rsOmega : Statement .rsOmega := by unfold Statement; decide
theorem rsChien : Statement .rsChien := by unfold Statement; decide
theorem rsDec : Statement .rsDec := by unfold Statement; decide

theorem gfAdd (f : GField) (a b : Byte) : Statement (.gfAdd f a b) :=
  word_ext fun k => by
    fin_cases k <;> simp [rowFixed, encode, commandWord_getElem, argAB_getElem, Instr.opcode, Instr.arg]

theorem gfMul (f : GField) (a b : Byte) : Statement (.gfMul f a b) :=
  word_ext fun k => by
    fin_cases k <;> simp [rowFixed, encode, commandWord_getElem, argAB_getElem, Instr.opcode, Instr.arg]

theorem gfDiv (f : GField) (a b : Byte) : Statement (.gfDiv f a b) :=
  word_ext fun k => by
    fin_cases k <;> simp [rowFixed, encode, commandWord_getElem, argAB_getElem, Instr.opcode, Instr.arg]

theorem gfExp (f : GField) (a : Byte) : Statement (.gfExp f a) :=
  word_ext fun k => by
    fin_cases k <;> simp [rowFixed, encode, commandWord_getElem, argAB_getElem, Instr.opcode, Instr.arg]

theorem gfLog (f : GField) (a : Byte) : Statement (.gfLog f a) :=
  word_ext fun k => by
    fin_cases k <;> simp [rowFixed, encode, commandWord_getElem, argAB_getElem, Instr.opcode, Instr.arg]

theorem fmtEnc (payload : BitVec 5) : Statement (.fmtEnc payload) :=
  word_ext fun k => by
    fin_cases k <;> simp [rowFixed, encode, commandWord_getElem, argPayload_getElem, Instr.opcode, Instr.arg,
      Instr.fBit]

theorem fmtDec (obs : BitVec 15) : Statement (.fmtDec obs) :=
  word_ext fun k => by
    fin_cases k <;> simp [rowFixed, encode, commandWord_getElem, argObs_getElem, Instr.opcode, Instr.arg,
      Instr.fBit]

theorem symLookup (version ecc : BitVec 3) : Statement (.symLookup version ecc) :=
  word_ext fun k => by
    fin_cases k <;> simp [rowFixed, encode, commandWord_getElem, argSym_getElem, Instr.opcode,
      Instr.fBit]

end Sys2Proof.Laws.EncodesItsRow
end

