-- ==== Sys2Proof/Tests/Slice0.lean ====
section
/-! SUPPORT. Small tests, each about one step on a small state. Expected values are those of spec/95_test_vectors.md
(the section is named beside each test) or are written out from the rule named. Then, for every statement with
hypotheses, a witness that meets them. -/

namespace Sys2Proof.Tests

open Sys2Proof.Machine Sys2Proof.Safety Sys2Proof.Claims

set_option Elab.async false

/-! ### Helpers -/

/-- A buffer with the bytes given from index 0, and 0 behind them. -/
def pol (l : List Byte) : Poly := forUp l.length (fun i p => setCoeff p i (l.getD i 0)) zeroPoly

/-- The first `n` bytes of a buffer. -/
def low (n : Nat) (p : Poly) : List Byte := (List.range n).map (coeff p)

/-- The reset state with CFG K and NPAR set. -/
def cfgState (k npar : Nat) : State := { State.reset with cfg := ⟨.ofNat 7 k, .ofNat 7 npar, 0, false⟩ }

/-- The state a step leads to. -/
def after (s : State) : State :=
  match step s with
  | .next t => t
  | .fault _ => s
  | .refused _ => s

/-- The state after the command word `w`, run next. -/
def ran (w : Nat) (s : State) : State := after (s.withFetchWord 32 w)

/-- ERRCODE and RESULT after the command word `w`, run on RESULT = 0xDEAD. -/
def outcome (w : Nat) : ErrCode × Word :=
  let t := ran w { State.reset with result := 0xDEAD }
  (t.errcode, t.result)

/-! ### Decoding: words written out bit by bit from 30_encoding.md R53, R54, R55: ARG high byte, ARG low byte, reserved
and F, OP -/

theorem test_decode_nop : decode 0b00000000_00000000_0000000_0_00000000#32 = .command .nop := by decide
theorem test_decode_rsGen : decode 0b00000000_00000000_0000000_0_00000001#32 = .command .rsGen := by decide
theorem test_decode_rsEnc : decode 0b00000000_00000000_0000000_0_00000010#32 = .command .rsEnc := by decide
theorem test_decode_rsSyn : decode 0b00000000_00000000_0000000_0_00000011#32 = .command .rsSyn := by decide
theorem test_decode_rsBm : decode 0b00000000_00000000_0000000_0_00000100#32 = .command .rsBm := by decide
theorem test_decode_rsOmega : decode 0b00000000_00000000_0000000_0_00000101#32 = .command .rsOmega := by decide
theorem test_decode_rsChien : decode 0b00000000_00000000_0000000_0_00000110#32 = .command .rsChien := by decide
theorem test_decode_rsDec : decode 0b00000000_00000000_0000000_0_00000111#32 = .command .rsDec := by decide
theorem test_decode_gfAdd :
    decode 0b11001010_01010011_0000000_0_00010000#32 = .command (.gfAdd .gf256 0x53 0xCA) := by decide
theorem test_decode_gfMul :
    decode 0b00001001_00000111_0000000_1_00010001#32 = .command (.gfMul .gf16 7 9) := by decide
theorem test_decode_gfDiv :
    decode 0b01010011_00000001_0000000_0_00010010#32 = .command (.gfDiv .gf256 1 0x53) := by decide
theorem test_decode_gfExp :
    decode 0b00000000_11111111_0000000_0_00010011#32 = .command (.gfExp .gf256 0xFF) := by decide
theorem test_decode_gfLog :
    decode 0b00000000_00001111_0000000_1_00010100#32 = .command (.gfLog .gf16 0xF) := by decide
theorem test_decode_fmtEnc :
    decode 0b00000000_000_10001_0000000_0_00100000#32 = .command (.fmtEnc 17) := by decide
theorem test_decode_fmtDec :
    decode 0b0_1000100_01000101_0000000_0_00100001#32 = .command (.fmtDec 0x4445) := by decide
theorem test_decode_symLookup :
    decode 0b00000000_0_011_0_100_0000000_0_00100010#32 = .command (.symLookup 4 3) := by decide

/-- 95_test_vectors.md 2.2, and the opcodes on either side of the assigned ranges (30_encoding.md R57). -/
theorem test_decode_unassigned : decode 0x00000008 = .illegal .unassignedOpcode ∧
    decode 0x0000000F = .illegal .unassignedOpcode ∧ decode 0x00000015 = .illegal .unassignedOpcode ∧
    decode 0x0000001F = .illegal .unassignedOpcode ∧ decode 0x00000023 = .illegal .unassignedOpcode ∧
    decode 0x000000FF = .illegal .unassignedOpcode := by decide
/-- 95_test_vectors.md 2.2: reserved bit 9; and bit 15. -/
theorem test_decode_reserved : decode 0x00000210 = .illegal .reservedBits ∧ decode 0x00008000 = .illegal .reservedBits := by
  decide
/-- 95_test_vectors.md 2.2: F = 1 on RS_DEC; and on SYM_LOOKUP. -/
theorem test_decode_fieldSelect :
    decode 0x00000107 = .illegal .fieldSelect ∧ decode 0x00340122 = .illegal .fieldSelect := by decide
/-- 95_test_vectors.md 2.2: the "must be 0" argument bits. -/
theorem test_decode_argument : decode 0x00010001 = .illegal .argumentBits ∧
    decode 0x01000013 = .illegal .argumentBits ∧ decode 0x01000114 = .illegal .argumentBits ∧
    decode 0x00200020 = .illegal .argumentBits ∧ decode 0x80000021 = .illegal .argumentBits ∧
    decode 0x00080022 = .illegal .argumentBits ∧ decode 0x00800022 = .illegal .argumentBits := by decide
/-- The host's numbering: one 32-bit word, the bits from `nbits` up 0. -/
theorem test_decodeTableWord : decodeTableWord 32 0x00340022 = some (.symLookup 4 3) ∧
    decodeTableWord 16 0x00340022 = some (.symLookup 0 0) ∧ decodeTableWord 32 0x00000008 = none := by decide

/-! ### Well-formedness: an ill-formed line for each check, refused (30_encoding.md R58: the assembler never truncates) -/

theorem test_illformed_gfAdd : (Asm.gfAdd .gf256 256 0).wellFormed = false ∧ (Asm.gfAdd .gf16 0 256).wellFormed = false := by
  decide
theorem test_illformed_gfMul : (Asm.gfMul .gf256 256 0).assemble = none ∧ (Asm.gfMul .gf256 0 256).assemble = none := by
  decide
theorem test_illformed_gfDiv : (Asm.gfDiv .gf256 300 1).assemble = none ∧ (Asm.gfDiv .gf16 1 300).assemble = none := by
  decide
theorem test_illformed_gfExp : (Asm.gfExp .gf256 256).assemble = none := by decide
theorem test_illformed_gfLog : (Asm.gfLog .gf16 256).assemble = none := by decide
theorem test_illformed_fmtEnc : (Asm.fmtEnc 32).assemble = none := by decide
theorem test_illformed_fmtDec : (Asm.fmtDec 0x8000).assemble = none := by decide
theorem test_illformed_symLookup : (Asm.symLookup 8 0).assemble = none ∧ (Asm.symLookup 0 8).assemble = none := by decide
theorem test_illformed_gfInv : (Asm.gfInv .gf256 256).assemble = none := by decide
theorem test_illformed_gfSqr : (Asm.gfSqr 256).assemble = none := by decide
theorem test_illformed_gfAlpha : (Asm.gfAlpha 256).assemble = none := by decide
theorem test_illformed_fmtEncSym : (Asm.fmtEncSym 8 0).assemble = none ∧ (Asm.fmtEncSym 0 4).assemble = none := by decide
/-- The largest operands that fit (30_encoding.md R58). -/
theorem test_wellformed : (Asm.gfAdd .gf256 255 255).assemble = some 0xFFFF0010 ∧
    (Asm.fmtDec 0x7FFF).assemble = some 0x7FFF0021 ∧ (Asm.symLookup 7 7).assemble = some 0x00770022 := by decide

/-! ### The commands, at most two tests each -/

/-- 95_test_vectors.md 2.2. -/
theorem test_nop : statusWord (ran 0x00000000 State.reset) = 0x00000002 := by decide +kernel
/-- 95_test_vectors.md 2.2. -/
theorem test_illegal : statusWord (ran 0x00000107 State.reset) = 0x00070106 := by decide +kernel

/-- 95_test_vectors.md 2.5: RS_GEN of NPAR 3. -/
theorem test_rsGen : let t := ran 0x00000001 (cfgState 0 3)
    low 6 t.gen = [0x08, 0x0E, 0x07, 0x01, 0, 0] ∧ rsInfoWord t.rsInfo = 0x00030000 := by decide +kernel
/-- 95_test_vectors.md 2.5: RS_GEN of NPAR 64. -/
theorem test_rsGen_param : let t := ran 0x00000001 (cfgState 0 64)
    t.errcode = .badParam ∧ t.gen = zeroPoly ∧ rsInfoWord t.rsInfo = 0 := by decide +kernel
/-- 95_test_vectors.md 2.5: RS_ENC of 44 40 00. -/
theorem test_rsEnc : let t := ran 0x00000002 { cfgState 3 2 with blk := pol [0x44, 0x40, 0x00, 0, 0, 0xEE] }
    low 7 t.blk = [0x44, 0x40, 0x00, 0x06, 0x02, 0xEE, 0] ∧ low 4 t.gen = [0x02, 0x03, 0x01, 0] := by decide +kernel
/-- 95_test_vectors.md 2.5: K + NPAR = 65. -/
theorem test_rsEnc_param : let t := ran 0x00000002 { cfgState 60 5 with blk := pol [1] }
    t.errcode = .badParam ∧ t.blk = pol [1] ∧ t.gen = zeroPoly := by decide +kernel
/-- 95_test_vectors.md 2.5 a. -/
theorem test_rsSyn : let t := ran 0x00000003 { cfgState 3 2 with blk := pol [0x44, 0x50, 0x00, 0x06, 0x02] }
    low 3 t.syn = [0x10, 0x80, 0] ∧ rsInfoWord t.rsInfo = 0x01020000 := by decide +kernel
/-- 95_test_vectors.md 2.5 b: bytes stand from the highest power down. -/
theorem test_rsSyn_order : low 3 (ran 0x00000003 { cfgState 3 2 with blk := pol [1] }).syn = [0x01, 0x10, 0] := by
  decide +kernel
/-- 95_test_vectors.md 2.5 c. -/
theorem test_rsBm : let t := ran 0x00000004 { cfgState 0 2 with syn := pol [0x10, 0x80] }
    low 3 t.sigma = [0x01, 0x08, 0] ∧ t.rsInfo.l = 1 := by decide +kernel
/-- 95_test_vectors.md 2.5 d: conflict C3. -/
theorem test_rsBm_late : let t := ran 0x00000004 { cfgState 0 6 with syn := pol [0, 0, 0, 0, 0, 7] }
    low 8 t.sigma = [1, 0, 0, 0, 0, 0, 7, 0] ∧ t.rsInfo.l = 6 := by decide +kernel
/-- 95_test_vectors.md 2.5 e3. -/
theorem test_rsOmega : let t := ran 0x00000005 { cfgState 0 5 with
      sigma := pol [0x01, 0x3E, 0xE8], syn := pol [0xA4, 0x94, 0xAF, 0x3E, 0xED] }
    low 4 t.sderiv = [0x3E, 0, 0, 0] ∧ low 5 t.omega = [0x94, 0xE6, 0, 0, 0] := by decide +kernel
/-- 95_test_vectors.md 2.5 e2: with NPAR 1 the evaluator is 0. -/
theorem test_rsOmega_one : let t := ran 0x00000005 { cfgState 0 1 with sigma := pol [0x01, 0x10], syn := pol [0x10] }
    low 2 t.sderiv = [0x10, 0] ∧ t.omega = zeroPoly := by decide +kernel
/-- 95_test_vectors.md 2.5 f. -/
theorem test_rsChien : let t := ran 0x00000006 { cfgState 3 2 with
      blk := pol [0x44, 0x50, 0x00, 0x06, 0x02], sigma := pol [0x01, 0x08], sderiv := pol [0x08], omega := pol [0x80] }
    low 6 t.blk = [0x44, 0x40, 0x00, 0x06, 0x02, 0] ∧ t.rsInfo.ncorr = 1 := by decide +kernel
/-- 95_test_vectors.md 2.5 f3: a repeated root, the quotient by a zero derivative. -/
theorem test_rsChien_sentinel : let t := ran 0x00000006 { cfgState 3 2 with
      blk := pol [0x44, 0x40, 0x00, 0x06, 0x02], sigma := pol [0x01, 0x00, 0x01], omega := pol [0x05] }
    low 6 t.blk = [0x44, 0x40, 0x00, 0x06, 0x07, 0] ∧ t.rsInfo.ncorr = 1 := by decide +kernel
/-- 95_test_vectors.md 2.6 b. -/
theorem test_rsDec : let t := ran 0x00000007 { cfgState 3 2 with blk := pol [0x44, 0x50, 0x00, 0x06, 0x02] }
    low 6 t.blk = [0x44, 0x40, 0x00, 0x06, 0x02, 0] ∧ rsInfoWord t.rsInfo = 0x00020101 ∧ t.errcode = .ok ∧
      low 3 t.sigma = [0x01, 0x08, 0] ∧ low 2 t.sderiv = [0x08, 0] ∧ low 2 t.omega = [0x80, 0] := by decide +kernel
/-- 95_test_vectors.md 2.6 i: a wrong magnitude with NPAR 1. -/
theorem test_rsDec_uncorrectable : let t := ran 0x00000007 { cfgState 3 1 with blk := pol [0x01, 0x06, 0x04, 0x07] }
    low 5 t.blk = [0x01, 0x41, 0x04, 0x07, 0] ∧ rsInfoWord t.rsInfo = 0x01010101 ∧ t.errcode = .rsUncorrectable ∧
      low 2 t.syn = [0x43, 0] := by decide +kernel

/-- 95_test_vectors.md 2.3. -/
theorem test_gfAdd : outcome 0xCA530010 = (.ok, 0x99) := by decide +kernel
/-- 95_test_vectors.md 2.4. -/
theorem test_gfAdd_operand : outcome 0x01100110 = (.badOperand, 0xDEAD) := by decide +kernel
/-- 95_test_vectors.md 2.3. -/
theorem test_gfMul : outcome 0xCA530011 = (.ok, 0x8F) := by decide +kernel
/-- 95_test_vectors.md 2.4. -/
theorem test_gfMul_gf16 : outcome 0x09070111 = (.ok, 0x0A) := by decide +kernel
/-- 95_test_vectors.md 2.3. -/
theorem test_gfDiv : outcome 0xCA8F0012 = (.ok, 0x53) ∧ outcome 0x00050012 = (.gfDiv0, 0xDEAD) := by decide +kernel
/-- 95_test_vectors.md 2.4: BAD_OPERAND wins over GF_DIV0. -/
theorem test_gfDiv_priority : outcome 0x00200112 = (.badOperand, 0xDEAD) ∧ outcome 0x09070112 = (.ok, 0x0E) := by
  decide +kernel
/-- 95_test_vectors.md 2.3. -/
theorem test_gfExp : outcome 0x00FE0013 = (.ok, 0x8E) ∧ outcome 0x00FF0013 = (.ok, 0x01) := by decide +kernel
/-- 95_test_vectors.md 2.4: an exponent above 15 is no operand error. -/
theorem test_gfExp_gf16 : outcome 0x00200113 = (.ok, 0x04) := by decide +kernel
/-- 95_test_vectors.md 2.3. -/
theorem test_gfLog : outcome 0x008E0014 = (.ok, 0xFE) ∧ outcome 0x00000014 = (.gfLog0, 0xDEAD) := by decide +kernel
/-- 95_test_vectors.md 2.4. -/
theorem test_gfLog_gf16 : outcome 0x000F0114 = (.ok, 0x0C) ∧ outcome 0x00100114 = (.badOperand, 0xDEAD) := by
  decide +kernel
/-- 95_test_vectors.md 2.7. -/
theorem test_fmtEnc : outcome 0x00150020 = (.ok, 0x1202) := by decide +kernel
/-- 95_test_vectors.md 2.7: three flipped bits. -/
theorem test_fmtDec : outcome 0x7BAB0021 = (.ok, 0x0103341F) := by decide +kernel
/-- 95_test_vectors.md 2.7: RESULT is written on failure too. -/
theorem test_fmtDec_tooMany : outcome 0x445A0021 = (.fmtTooManyErrors, 0x02040101) := by decide +kernel
/-- 95_test_vectors.md 2.8. -/
theorem test_symLookup : outcome 0x00240022 = (.ok, 0x0A06) := by decide +kernel
/-- 95_test_vectors.md 2.8. -/
theorem test_symLookup_bad : outcome 0x00440022 = (.badCombination, 0xDEAD) := by decide +kernel

/-! ### The port, the registers and reset (95_test_vectors.md 2.1) -/

/-- The engine busy with RS_DEC. -/
def busyState : State := accept 0x00000007 State.reset

/-- The data a read of an offset gets. -/
def readAt (off : Offset) (s : State) : Option Response := (portAccess (read32 off) s).response

/-- Vectors a, b. -/
theorem test_port_identity :
    readAt 0x000 State.reset = some ⟨false, some 0x4D514543⟩ ∧ readAt 0x004 busyState = some ⟨false, some 0x07014040⟩ := by
  decide
/-- Vector f. -/
theorem test_port_unsupported :
    (portAccess (.read .word 0x002) busyState).response = some ⟨true, some 0⟩ ∧
    (portAccess (.write .half 0x014 0xFFFF) State.reset).cfg = State.reset.cfg := by decide
/-- Vector g. -/
theorem test_port_buffer :
    low 17 (portAccess (write32 0x14C 0xDDCCBBAA) State.reset).syn =
      [0, 0, 0, 0, 0, 0, 0, 0, 0, 0, 0, 0, 0xAA, 0xBB, 0xCC, 0xDD, 0] := by decide +kernel
/-- Vector h. -/
theorem test_port_cfg :
    readAt 0x014 (portAccess (write32 0x014 0xFFFFFFFF) State.reset) = some ⟨false, some 0x000F7F7F⟩ := by decide +kernel
/-- Vector i. -/
theorem test_port_ctrl :
    readAt 0x008 (portAccess (write32 0x008 0xFFFFFFFD) State.reset) = some ⟨false, some 1⟩ := by decide +kernel
/-- Vector j. -/
theorem test_port_status :
    statusWord (portAccess (write32 0x00C 0x8)
      { State.reset with lastOp := 7, done := true, busyAcc := true, cmdOvf := true }) = 0x00070012 := by decide +kernel
/-- 95_test_vectors.md 3.1, lines 12 to 14: the host reads RESULT. -/
theorem test_port_result : readAt 0x018 (ran 0x00000020 State.reset) = some ⟨false, some 0x00004445⟩ := by decide +kernel
/-- 60_exceptions.md R113: the codes of the ten names, at STATUS [11:8]. -/
theorem test_port_errcodes : ([.ok, .illegalCmd, .badParam, .badOperand, .gfDiv0, .gfLog0, .rsUncorrectable,
      .fmtTooManyErrors, .fmtAmbiguous, .badCombination] : List ErrCode).map
      (fun e => (statusWord { State.reset with errcode := e }).extractLsb' 8 4) = [0, 1, 2, 3, 4, 5, 6, 7, 8, 9] := by
  decide +kernel
/-- Vectors k, l, m. -/
theorem test_port_busy : let t := portAccess (write32 0x010 0) (portAccess (read32 0x100) busyState)
    t.busyAcc = true ∧ t.cmdOvf = true ∧ t.cmdLast = 7 ∧ readAt 0x00C busyState = some ⟨false, some 0x00070001⟩ := by
  decide +kernel
/-- Vector n. -/
theorem test_port_softReset : let t := portAccess (write32 0x008 3) { busyState with blk := pol [1] }
    t.phase = .idle ∧ t.blk = zeroPoly ∧ t.ie = false ∧ statusWord t = 0 := by decide +kernel
/-- 70_reset_and_hazards.md R128, R130: the clock cycle of an asserted reset aborts the command, and so does the release. -/
theorem test_port_hardwareReset : let s : State := { busyState with resetPin := true, blk := pol [1] }
    (after s).phase = .idle ∧ (after s).done = false ∧ (after s).blk = zeroPoly ∧
    (driveResetInput false s).phase = .idle ∧ (driveResetInput false s).resetPin = false := by decide +kernel
/-- Vectors o, p. -/
theorem test_port_ack : let s : State := { State.reset with ie := true, done := true, errcode := .gfDiv0 }
    s.irq = true ∧ (portAccess hostAck s).irq = false ∧ statusWord (portAccess hostAck s) = 0x00000404 := by
  decide +kernel
/-- The host lines of 95_test_vectors.md 3.2, lines 2, 3 and 5 (30_encoding.md R60). -/
theorem test_host_lines : hostCfg 3 2 = write32 0x014 0x00000203 ∧
    hostWrblk .blk 0 0x44 0x50 0x00 0x06 = write32 0x100 0x06005044 ∧ hostIssue .rsDec = write32 0x010 0x00000007 ∧
    hostCfgSym 5 1 = write32 0x014 0x00090005 := by decide

/-! ### Witnesses: for each statement with hypotheses, states and operands that meet them all, and for each clause one -/

/-- A clean block of K = 3, NPAR = 2 in an idle engine (95_test_vectors.md 2.6 a). -/
def cleanState : State := { cfgState 3 2 with blk := pol [0x44, 0x40, 0x00, 0x06, 0x02] }

/-- The engine of `busyState` with the hardware reset input asserted. -/
def heldState : State := { busyState with resetPin := true }

/-- The idle engine with DONE and the misuse flags set and an error recorded. -/
def flaggedState : State :=
  { State.reset with done := true, busyAcc := true, cmdOvf := true, errcode := .gfDiv0, ie := true }

/-- The busy engine with the events given still to come, running the word `w`. -/
def busyWith (w : Word) (es : List Event) : State := { accept w State.reset with agenda := es }

theorem busyWith_inv (w : Word) (es : List Event) : EngineInv (busyWith w es) where
  lastOp := rfl
  busy := fun _ => ⟨rfl, rfl⟩
  latency := fun _ => Nat.succ_pos _
  held := fun h => nomatch h
  l := Nat.zero_le _
  ncorr := Nat.zero_le _
  result := by show (0#32).toNat < 2 ^ 30; decide

theorem flaggedState_inv (es : List Event) : EngineInv { flaggedState with agenda := es } where
  lastOp := rfl
  busy := fun h => nomatch h
  latency := fun h => nomatch h
  held := fun h => nomatch h
  l := Nat.zero_le _
  ncorr := Nat.zero_le _
  result := by show (0#32).toNat < 2 ^ 30; decide

theorem witness_DecodeInvertsEncode : decode 0xFFFF0110 = .command (.gfAdd .gf16 0xFF 0xFF) := by decide
theorem witness_DecodeFollowsTheOpcodeMap :
    (∃ r ∈ opcodeMap, 0xFFFF0110#32 &&& r.mask = r.pat) ∧ ∀ r ∈ opcodeMap, 0x00000008#32 &&& r.mask ≠ r.pat := by
  decide +kernel
theorem witness_IllegalWordsFailWithIllegalCmd :
    State.reset.resetPin = false ∧ State.reset.phase = .idle ∧ ∃ why, decode 0x00000008 = .illegal why :=
  ⟨rfl, rfl, .unassignedOpcode, by decide⟩
theorem witness_StepRunsTheDecodedCommand :
    busyState.phase = .busy ∧ busyState.resetPin = false ∧ decode busyState.cmdLast = .command .rsDec ∧
    busyState.agenda = [] ∧ (busyWith 7 [.cycle true]).agenda = .cycle true :: [] ∧
    decodeTableWord 32 0x00000007 = some .rsDec := by decide
theorem witness_StepRunsTheDecodedCommand_latency : ∃ s : State, s.phase = .busy ∧ s.resetPin = false ∧
    decode s.cmdLast = .command .rsDec ∧ s.agenda = [.cycle false] ∧
    Config.cmdLatency (opField s.cmdLast) ≤ s.busyCycles + 1 :=
  ⟨{ busyWith 7 [.cycle false] with busyCycles := Config.cmdLatency 7 }, rfl, rfl, by decide, rfl, Nat.le_succ _⟩
theorem witness_StepRunsTheDecodedCommand_cycles : (busyWith 7 [.cycle false]).phase = .busy ∧
    (busyWith 7 [.cycle false]).resetPin = false ∧ (busyWith 7 [.cycle false]).agenda = .cycle false :: [] ∧
    State.reset.phase = .idle ∧ State.reset.agenda = [] ∧ heldState.resetPin = true ∧
    { flaggedState with agenda := [.cycle true] }.agenda = .cycle true :: [] := by decide
theorem witness_AcceptanceWritesOnlyStatusAndCmdLast : flaggedState.resetPin = false ∧ flaggedState.phase = .idle := by
  decide
theorem witness_CmdWriteWhileBusyIsDropped : busyState.resetPin = false ∧ busyState.phase = .busy := by decide
theorem witness_AccessesTakeEffectOneAtATime :
    (busyWith 7 [.access (read32 0x100), .cycle true]).agenda = .access (read32 0x100) :: [.cycle true] := rfl
theorem witness_CommandCompletesWithinItsLatency : ∃ (s : State) (es : List Event),
    s.phase = .busy ∧ s.resetPin = false ∧ s.busyCycles < Config.cmdLatency (opField s.cmdLast) ∧
    (∀ e ∈ es, isReset e = false) ∧ Config.cmdLatency (opField s.cmdLast) ≤ s.busyCycles + countCycles es := by
  refine ⟨busyState, .access (read32 0x100) :: List.replicate (Config.cmdLatency 7) (.cycle false), rfl, rfl,
    Nat.succ_pos _, ?_, ?_⟩
  · intro e he
    rcases List.mem_cons.mp he with rfl | he
    · rfl
    · rw [List.eq_of_mem_replicate he]; rfl
  · have h : opField busyState.cmdLast = 7 := by decide
    simp [countCycles, isCycle, List.countP_replicate, h]
theorem witness_HostAccessesCannotDisturbARunningCommand :
    busyState.phase = .busy ∧ busyState.resetPin = false ∧
    ∀ a ∈ [read32 0x100, write32 0x010 0, write32 0x008 1, write32 0x00C 0xFFFFFFFF], isSoftReset a = false := by decide
theorem witness_CommandsReadNoFlag : let s' : State := { flaggedState with result := 1, rsInfo := ⟨1, 1, 1, true⟩ }
    s'.cfg = State.reset.cfg ∧ (∀ b, s'.buf b = State.reset.buf b) ∧ s'.result ≠ State.reset.result ∧
    s'.rsInfo ≠ State.reset.rsInfo ∧ s'.done ≠ State.reset.done :=
  ⟨rfl, fun _ => rfl, by decide, by decide, by decide⟩
theorem witness_CommandsWriteOnlyTheirOwnState :
    Buffer.gen ∉ writesBuffers .rsSyn ∧ isRsCommand .rsGen = true ∧ isRsCommand (.fmtEnc 0) = false ∧
    Instr.rsSyn ≠ .rsBm ∧ Instr.rsSyn ≠ .rsDec ∧ Instr.rsSyn ≠ .rsChien ∧ blockLength cleanState.cfg ≤ 5 ∧ 2 < cleanState.cfg.k.toNat := by decide
theorem witness_CommandsRaiseOnlyTheirOwnErrors :
    (ran 0x00000001 State.reset).errcode = .badParam ∧ (ran 0x00100114 State.reset).errcode = .badOperand ∧
    (ran 0x00000012 State.reset).errcode = .gfDiv0 ∧ (ran 0x00000014 State.reset).errcode = .gfLog0 ∧
    (ran 0x00000022 State.reset).errcode = .badCombination := by decide +kernel
theorem witness_UnsupportedAccessIsRefused :
    busyState.resetPin = false ∧ (Access.read .byte 0x100).width ≠ .word ∧ (write32 0x3FF 0).off.toNat % 4 ≠ 0 := by decide
theorem witness_UnmappedOffsetsReadZero : busyState.resetPin = false ∧ ∀ off ∈ [0x020#10, 0x0FC#10, 0x280#10, 0x3FC#10],
    off.toNat % 4 = 0 ∧ IsUnmapped off := by unfold IsUnmapped; decide
theorem witness_ReadOnlyRegistersIgnoreWrites :
    State.reset.resetPin = false ∧ State.reset.phase = .idle ∧ busyState.resetPin = false ∧ busyState.phase = .busy := by
  decide
theorem witness_GroupBIsBlockedWhileBusy : busyState.resetPin = false ∧ busyState.phase = .busy ∧
    (∀ off ∈ [0x014#10, 0x018#10, 0x01C#10, 0x100#10, 0x27C#10], off.toNat % 4 = 0 ∧ IsGroupB off) ∧
    (0x010#10).toNat % 4 = 0 ∧ (0x010#10).toNat ≤ 0x010 ∧ ¬ IsGroupB 0x010 := by unfold IsGroupB; decide
theorem witness_BufferWordsAreLittleEndian :
    State.reset.resetPin = false ∧ State.reset.phase = .idle ∧ Buffer.gen.base + 4 * 15 = 0x27C := by decide
theorem witness_CfgStoresItsFieldsAsWritten :
    State.reset.resetPin = false ∧ State.reset.phase = .idle ∧ cfgWord State.reset.cfg = 0 ∧ isRsCommand .rsDec = true := by
  decide
theorem witness_CtrlStoresIeOrResets : flaggedState.resetPin = false ∧ busyState.resetPin = false ∧
    (0xFFFFFFFD#32).getLsbD 1 = false ∧ (0x00000003#32).getLsbD 1 = true := by decide
theorem witness_StatusResultAndRsInfoReadTheirFields :
    flaggedState.resetPin = false ∧ flaggedState.phase = .idle ∧ busyState.resetPin = false := by decide
theorem witness_StatusWriteClearsItsW1cBits : flaggedState.resetPin = false ∧
    EngineInv (busyWith 7 []) ∧ (busyWith 7 []).phase = .busy ∧ (busyWith 7 []).resetPin = false :=
  ⟨rfl, busyWith_inv _ _, rfl, rfl⟩
theorem witness_CmdReadsTheLastAcceptedWord : busyState.resetPin = false ∧ State.reset.resetPin = false := by decide
theorem witness_IdentityRegistersNeverChange : busyState.resetPin = false := rfl
theorem witness_WindowIsOneKilobyteAtEngineBase : Config.engineBase + 1024 ≤ Config.engineBase + 1024 := Nat.le_refl _

/-- The step of each edge of `irq` (10_state.md R30): completion with IE = 1, IE set after DONE; ack, CMD write. -/
theorem witness_IrqIsIeAndDone_rise : ∃ s t : State, EngineInv s ∧ step s = .next t ∧ s.irq = false ∧ t.irq = true :=
  ⟨{ flaggedState with ie := false, agenda := [.access (write32 0x008 1)] }, _,
    { flaggedState_inv [] with held := fun h => nomatch h }, rfl, by decide, by decide⟩
theorem witness_IrqIsIeAndDone_completion : ∃ s t : State, EngineInv s ∧ step s = .next t ∧ s.irq = false ∧ t.irq = true :=
  ⟨{ busyWith 0 [.cycle true] with ie := true }, _,
    { busyWith_inv 0 [] with held := fun h => nomatch h }, rfl, by decide, by decide⟩
theorem witness_IrqIsIeAndDone_fall : ∃ s t : State, EngineInv s ∧ step s = .next t ∧ s.irq = true ∧ t.irq = false :=
  ⟨{ flaggedState with agenda := [.access (write32 0x00C 2)] }, _, flaggedState_inv _, rfl, by decide, by decide⟩

/-- 10_state.md R33, the flags that a CMD write changes: BUSY up, DONE and ERR down. -/
theorem witness_FlagsChangeOnlyAsTabled_issue : ∃ s t : State, EngineInv s ∧ step s = .next t ∧
    s.phase = .idle ∧ t.phase = .busy ∧ s.done = true ∧ t.done = false ∧ s.errFlag = true ∧ t.errFlag = false :=
  ⟨{ flaggedState with agenda := [.access (write32 0x010 0)] }, _, flaggedState_inv _, rfl, by decide⟩
/-- BUSY down, DONE and ERR up: an illegal word completes. -/
theorem witness_FlagsChangeOnlyAsTabled_completion : ∃ s t : State, EngineInv s ∧ step s = .next t ∧
    s.phase = .busy ∧ t.phase = .idle ∧ s.done = false ∧ t.done = true ∧ s.errFlag = false ∧ t.errFlag = true :=
  ⟨busyWith 8 [.cycle true], _, busyWith_inv _ _, rfl, by decide⟩
/-- BUSY_ACC up. -/
theorem witness_FlagsChangeOnlyAsTabled_busyAcc : ∃ s t : State, EngineInv s ∧ step s = .next t ∧
    s.busyAcc = false ∧ t.busyAcc = true :=
  ⟨busyWith 7 [.access (read32 0x100)], _, busyWith_inv _ _, rfl, by decide⟩
/-- CMD_OVF up. -/
theorem witness_FlagsChangeOnlyAsTabled_cmdOvf : ∃ s t : State, EngineInv s ∧ step s = .next t ∧
    s.cmdOvf = false ∧ t.cmdOvf = true :=
  ⟨busyWith 7 [.access (write32 0x010 0)], _, busyWith_inv _ _, rfl, by decide⟩
/-- BUSY_ACC, CMD_OVF and DONE down. -/
theorem witness_FlagsChangeOnlyAsTabled_ack : ∃ s t : State, EngineInv s ∧ step s = .next t ∧
    s.busyAcc = true ∧ t.busyAcc = false ∧ s.cmdOvf = true ∧ t.cmdOvf = false ∧ s.done = true ∧ t.done = false :=
  ⟨{ flaggedState with agenda := [.access (write32 0x00C 0x1A)] }, _, flaggedState_inv _, rfl, by decide⟩
/-- SYN_NZ changed. -/
theorem witness_FlagsChangeOnlyAsTabled_synNz : ∃ s t : State, EngineInv s ∧ step s = .next t ∧
    s.rsInfo.synNz ≠ t.rsInfo.synNz := by
  refine ⟨{ busyWith 3 [.cycle true] with cfg := ⟨1, 1, 0, false⟩, blk := pol [1] }, _,
    { busyWith_inv 3 [] with held := fun h => nomatch h }, rfl, ?_⟩
  decide +kernel

theorem witness_ResetLeavesTheResetValues : busyState.resetPin = false ∧ (0x00000002#32).getLsbD 1 = true ∧
    heldState.resetPin = true := by decide
theorem witness_ResetAbortsTheRunningCommand :
    busyState.phase = .busy ∧ busyState.resetPin = false ∧
    (busyWith 7 [.resetInput true]).agenda = .resetInput true :: [] ∧
    (busyWith 7 [.access (write32 0x008 2)]).agenda = .access (write32 0x008 2) :: [] ∧ (0x2#32).getLsbD 1 = true ∧
    (∃ t, step (busyWith 7 [.resetInput true]) = .next t) ∧
    ∃ t, step (busyWith 7 [.access (write32 0x008 2)]) = .next t := ⟨rfl, rfl, rfl, rfl, rfl, ⟨_, rfl⟩, _, rfl⟩
theorem witness_ResetEventsLeaveTheResetValues :
    (busyWith 7 [.powerCycle]).agenda = .powerCycle :: [] ∧
    (busyWith 7 [.resetInput true]).agenda = .resetInput true :: [] ∧
    { heldState with agenda := [.resetInput false] }.agenda = .resetInput false :: [] ∧
    { heldState with agenda := [.resetInput false] }.resetPin = true ∧
    (busyWith 7 [.resetInput false]).agenda = .resetInput false :: [] ∧
    (busyWith 7 [.resetInput false]).resetPin = false ∧
    { heldState with agenda := [.cycle true] }.agenda = .cycle true :: [] ∧
    { heldState with agenda := [.cycle true] }.resetPin = true := ⟨rfl, rfl, rfl, rfl, rfl, rfl, rfl, rfl⟩
theorem witness_EveryStepKeepsTheInvariant : ∃ s t : State, EngineInv s ∧ step s = .next t ∧ s ≠ t :=
  ⟨busyWith 7 [.access (read32 0x100)], _, busyWith_inv _ _, rfl, by decide +kernel⟩

theorem witness_GfMulObeysTheFieldLaws :
    isElement .gf16 15 = true ∧ isElement .gf16 7 = true ∧ isElement .gf16 1 = true ∧ isElement .gf256 0xFF = true := by decide
theorem witness_LutDivReadsTheSentinel : (0xFF#8 : Byte) ≠ 0 ∧ (1#8 : Byte) ≠ 0 := by decide
theorem witness_GfDivGivesTheFieldQuotient :
    (GField.gf16 = .gf16 ∧ (16 ≤ (16#8).toNat ∨ 16 ≤ (0#8).toNat)) ∧
    ¬ (GField.gf16 = .gf16 ∧ (16 ≤ (15#8).toNat ∨ 16 ≤ (15#8).toNat)) ∧ (15#8 : Byte) ≠ 0 := by decide
theorem witness_GfLogInvertsTheExponential :
    (GField.gf16 = .gf16 ∧ 16 ≤ (16#8).toNat) ∧ ¬ (GField.gf16 = .gf16 ∧ 16 ≤ (15#8).toNat) ∧ (15#8 : Byte) ≠ 0 := by decide
theorem witness_NopOnlyCompletes : decode 0x00000000 = .command .nop := by decide
theorem witness_FmtDecCorrectsThreeFlippedBits : hamming (formatWord (0#5).toNat) 0x4442 ≤ 3 ∧
    hamming (formatWord (31#5).toNat) 0x7BAB = 3 := by decide +kernel
theorem witness_SymLookupFollowsTheSymbolTable :
    (versionOf 7 = 4 ∧ eccOf 7 = 3) ∧ ∀ sym < 8, ¬ (versionOf sym = 1 ∧ eccOf sym = 1) := by decide

/-- CFG at the bounds of `npar_ok` and `block_ok` (40_command_execution.md R67): the smallest block, the largest NPAR, the
largest K, the table's NPAR; and just outside each bound. -/
theorem witness_RsCommandsCheckTheirParameters :
    (NeedsNpar .rsGen ∧ NparOk (cfgState 0 1).cfg) ∧ (NeedsNpar .rsBm ∧ NparOk (cfgState 0 63).cfg) ∧
    (NeedsNpar .rsOmega ∧ ¬ NparOk (cfgState 0 64).cfg) ∧ (NeedsNpar .rsGen ∧ ¬ NparOk (cfgState 1 0).cfg) ∧
    (NeedsBlock .rsEnc ∧ BlockOk (cfgState 1 63).cfg) ∧ (NeedsBlock .rsSyn ∧ BlockOk (cfgState 63 1).cfg) ∧
    (NeedsBlock .rsChien ∧ ¬ BlockOk (cfgState 0 2).cfg) ∧ (NeedsBlock .rsDec ∧ ¬ BlockOk (cfgState 60 5).cfg) := by
  unfold NeedsNpar NeedsBlock BlockOk NparOk; decide
theorem witness_NparOk : NparOk (cfgState 0 1).cfg ∧ NparOk (cfgState 0 63).cfg ∧
    NparOk { k := 0, npar := 0, sym := 7, useSym := true } := by unfold NparOk; decide
theorem witness_BlockOk : BlockOk (cfgState 1 1).cfg ∧ BlockOk (cfgState 1 63).cfg ∧ BlockOk (cfgState 50 14).cfg ∧
    BlockOk { k := 16, npar := 0, sym := 7, useSym := true } := by unfold BlockOk NparOk; decide

/-- RS_GEN. -/
theorem witness_RsGenWritesTheGenerator : NparOk (cfgState 0 63).cfg := witness_NparOk.2.1
/-- RS_ENC. -/
theorem witness_RsEncMakesACodeword : BlockOk (cfgState 50 14).cfg := witness_BlockOk.2.2.1
/-- RS_ENC, then RS_SYN. -/
theorem witness_EncodedBlockHasZeroSyndromes : ∃ s t : State, BlockOk s.cfg ∧ exec .rsEnc s = .next t :=
  ⟨cfgState 3 2, _, by unfold BlockOk NparOk; decide, rfl⟩
/-- RS_SYN. -/
theorem witness_RsSynEvaluatesTheBlock : BlockOk (cfgState 1 63).cfg := witness_BlockOk.2.1
/-- RS_BM, with syndromes that are 0 and syndromes that are not, and a locator that is not the shortest
(95_test_vectors.md 2.5 c, d2). -/
theorem witness_RsBmLocatorGeneratesTheSyndromes : NparOk (cfgState 0 1).cfg ∧
    (∀ i < effectiveNpar (cfgState 0 1).cfg, coeff (cfgState 0 1).syn i = 0) ∧ coeff (pol [0x10, 0x80]) 1 ≠ 0 ∧
    IsLocator (pol [0x10, 0x80]) 2 onePoly 2 := by
  refine ⟨witness_NparOk.1, by decide +kernel, by decide +kernel, by decide +kernel, ?_, fun q h h' => absurd h (by omega)⟩
  intro i hi
  have h : ∀ i < 64, 2 < i → coeff onePoly i = 0 := by decide +kernel
  by_cases h64 : i < 64
  · exact h i h64 hi
  · simp only [coeff]
    rw [Vector.getElem?_eq_none (by omega)]
    rfl
/-- RS_OMEGA. -/
theorem witness_RsOmegaWritesDerivativeAndEvaluator : NparOk (cfgState 0 1).cfg := witness_NparOk.1
/-- RS_CHIEN, with a position that is a root and one that is not (95_test_vectors.md 2.5 f). -/
theorem witness_RsChienCorrectsTheRoots : BlockOk (cfgState 3 2).cfg ∧
    polyValue (pol [0x01, 0x08]) (alpha .gf256 (255 - 3)) = 0 ∧ polyValue (pol [0x01, 0x08]) (alpha .gf256 (255 - 2)) ≠ 0 :=
  ⟨by unfold BlockOk NparOk; decide, by decide +kernel, by decide +kernel⟩
/-- RS_DEC. -/
theorem witness_RsDecIsItsStepsInTurn : BlockOk cleanState.cfg := by unfold BlockOk NparOk; decide
/-- RS_DEC on a codeword and on a block that stays no codeword (95_test_vectors.md 2.6 a, i). -/
theorem witness_RsDecSucceedsExactlyOnCodewords :
    BlockOk cleanState.cfg ∧ IsCodeword cleanState.blk (blockLength cleanState.cfg) (effectiveNpar cleanState.cfg) ∧
    BlockOk (cfgState 3 1).cfg ∧ ¬ IsCodeword (pol [0x01, 0x41, 0x04, 0x07]) 4 1 := by
  unfold BlockOk NparOk IsCodeword
  exact ⟨by decide, by decide +kernel, by decide, by decide +kernel⟩
/-- RS_DEC on a codeword with one byte changed, at the first and at the last position. -/
theorem witness_RsDecCorrectsOneByteError : BlockOk cleanState.cfg ∧ 2 ≤ effectiveNpar cleanState.cfg ∧
    0 < blockLength cleanState.cfg ∧ 4 < blockLength cleanState.cfg ∧ (0x10#8 : Byte) ≠ 0 ∧
    IsCodeword cleanState.blk (blockLength cleanState.cfg) (effectiveNpar cleanState.cfg) :=
  ⟨witness_RsDecIsItsStepsInTurn, by decide, by decide, by decide, by decide,
    witness_RsDecSucceedsExactlyOnCodewords.2.1⟩
/-- RS_DEC on a codeword with two bytes changed, NPAR = 5 (95_test_vectors.md 2.6 d, on the zero codeword). -/
theorem witness_RsDecCorrectsHalfTheParity : BlockOk (cfgState 5 5).cfg ∧
    IsCodeword zeroPoly (blockLength (cfgState 5 5).cfg) (effectiveNpar (cfgState 5 5).cfg) ∧
    (∀ j, blockLength (cfgState 5 5).cfg ≤ j → coeff (pol [0x01, 0, 0, 0, 0, 0, 0, 0xA5]) j = coeff zeroPoly j) ∧
    2 * (List.range (blockLength (cfgState 5 5).cfg)).countP
      (fun j => coeff (pol [0x01, 0, 0, 0, 0, 0, 0, 0xA5]) j != coeff zeroPoly j) ≤ effectiveNpar (cfgState 5 5).cfg := by
  refine ⟨by unfold BlockOk NparOk; decide, by unfold IsCodeword; decide +kernel, ?_, by decide +kernel⟩
  intro j hj
  have h : ∀ j < 64, 10 ≤ j → coeff (pol [0x01, 0, 0, 0, 0, 0, 0, 0xA5]) j = coeff zeroPoly j := by decide +kernel
  by_cases h64 : j < 64
  · exact h j h64 hj
  · simp only [coeff]
    rw [Vector.getElem?_eq_none (by omega), Vector.getElem?_eq_none (by omega)]

end Sys2Proof.Tests
end

section
/-! SUPPORT and proofs. The writes of each command as data (10_state.md R26, R33; 40_command_execution.md R65), and what
follows for what a command reads, writes and leaves unchanged. -/

namespace Sys2Proof.Proofs

open Sys2Proof.Machine Sys2Proof.Safety Sys2Proof.Claims

/-! ### What a command writes, as data (10_state.md R26, R33) -/

/-- The writes of a command's run: a value for RESULT, for each field of RS_INFO and for each buffer, or none where the
command keeps it. -/
structure Effect where
  result : Option Word := none
  l : Option (BitVec 7) := none
  ncorr : Option (BitVec 7) := none
  nparUsed : Option (BitVec 6) := none
  synNz : Option Bool := none
  blk : Option Poly := none
  syn : Option Poly := none
  sigma : Option Poly := none
  sderiv : Option Poly := none
  omega : Option Poly := none
  gen : Option Poly := none

/-- What is written to a buffer. -/
def Effect.buf (e : Effect) : Buffer → Option Poly
  | .blk => e.blk
  | .syn => e.syn
  | .sigma => e.sigma
  | .sderiv => e.sderiv
  | .omega => e.omega
  | .gen => e.gen

/-- The state with the writes made. -/
def Effect.apply (e : Effect) (s : State) : State :=
  { s with
    result := e.result.getD s.result
    rsInfo := ⟨e.l.getD s.rsInfo.l, e.ncorr.getD s.rsInfo.ncorr, e.nparUsed.getD s.rsInfo.nparUsed,
      e.synNz.getD s.rsInfo.synNz⟩
    blk := e.blk.getD s.blk
    syn := e.syn.getD s.syn
    sigma := e.sigma.getD s.sigma
    sderiv := e.sderiv.getD s.sderiv
    omega := e.omega.getD s.omega
    gen := e.gen.getD s.gen }

/-- The run that ends with a code and makes the writes. -/
def Effect.run (r : ErrCode × Effect) (s : State) : ErrCode × State := (r.1, r.2.apply s)

@[simp] theorem Effect.apply_buf (e : Effect) (s : State) (b : Buffer) :
    (e.apply s).buf b = (e.buf b).getD (s.buf b) := by
  cases b <;> rfl

/-- A byte result (10_state.md R23). -/
def byteEffect (v : Byte) : Effect := { result := some (v.setWidth 32) }

/-- RS_GEN's writes (42_rs_encode.md R88). -/
def genEffect (n : Nat) : Effect := { nparUsed := some (.ofNat 6 n), gen := some (generator n) }

/-- RS_ENC's writes on a block (42_rs_encode.md R90). -/
def encEffect (k n : Nat) (blk : Poly) : Effect :=
  { genEffect n with blk := some (withParity blk (remainder (generator n) blk k n) k n) }

/-- RS_SYN's writes on a block of length `nb` (43_rs_decode.md R97). -/
def synEffect (nb n : Nat) (blk : Poly) : Effect :=
  { nparUsed := some (.ofNat 6 n), syn := some (syndromes blk nb n), synNz := some (anyNonzero (syndromes blk nb n) n) }

/-- RS_BM's writes (43_rs_decode.md R98). -/
def bmEffect (n : Nat) (syn : Poly) : Effect :=
  let r := berlekampMassey syn n
  { nparUsed := some (.ofNat 6 n), sigma := some r.1, l := some (.ofNat 7 r.2) }

/-- RS_OMEGA's writes (43_rs_decode.md R99). -/
def omegaEffect (n : Nat) (sigma syn : Poly) : Effect :=
  { nparUsed := some (.ofNat 6 n), sderiv := some (derivative sigma), omega := some (evaluator sigma syn n) }

/-- RS_CHIEN's writes on a block of length `nb` (43_rs_decode.md R100). -/
def chienEffect (nb n : Nat) (sigma sderiv omega blk : Poly) : Effect :=
  let r := chienForney sigma sderiv omega blk nb
  { nparUsed := some (.ofNat 6 n), blk := some r.1, ncorr := some (.ofNat 7 r.2) }

/-- RS_DEC's writes on a block that needs correction: RS_BM's, RS_OMEGA's and RS_CHIEN's, and RS_SYN's on the corrected
block (43_rs_decode.md R101). -/
def correctEffect (nb n : Nat) (blk : Poly) : Effect :=
  let syn := syndromes blk nb n
  let sigma := (berlekampMassey syn n).1
  let chien := chienEffect nb n sigma (derivative sigma) (evaluator sigma syn n) blk
  let check := synEffect nb n (chien.blk.getD blk)
  { omegaEffect n sigma syn with
    sigma := some sigma, l := (bmEffect n syn).l, blk := chien.blk, ncorr := chien.ncorr
    syn := check.syn, synNz := check.synNz }

/-- RS_DEC's writes on a clean block (43_rs_decode.md R101, early exit). -/
def cleanEffect (nb n : Nat) (blk : Poly) : Effect :=
  { synEffect nb n blk with
    l := some 0, ncorr := some 0, sigma := some onePoly, sderiv := some zeroPoly, omega := some zeroPoly }

/-- RS_DEC's code and writes (43_rs_decode.md R101). -/
def decEffect (nb n : Nat) (blk : Poly) : ErrCode × Effect :=
  if anyNonzero (syndromes blk nb n) n then
    let e := correctEffect nb n blk
    (if e.synNz.getD false then .rsUncorrectable else .ok, e)
  else (.ok, cleanEffect nb n blk)

/-- An RS command's code and writes behind its parameter check (40_command_execution.md R67). -/
def checked (ok : Bool) (r : ErrCode × Effect) : ErrCode × Effect := if ok then r else (.badParam, {})

/-- Every command's error code and writes, from CFG and the buffers alone (40_command_execution.md R65). -/
def effectOf (i : Instr) (c : Cfg) (buf : Buffer → Poly) : ErrCode × Effect :=
  match i with
  | .nop => (.ok, {})
  | .rsGen => checked c.nparOk (.ok, genEffect c.nparEff)
  | .rsEnc => checked c.blockOk (.ok, encEffect c.kEff c.nparEff (buf .blk))
  | .rsSyn => checked c.blockOk (.ok, synEffect c.nEff c.nparEff (buf .blk))
  | .rsBm => checked c.nparOk (.ok, bmEffect c.nparEff (buf .syn))
  | .rsOmega => checked c.nparOk (.ok, omegaEffect c.nparEff (buf .sigma) (buf .syn))
  | .rsChien =>
    checked c.blockOk (.ok, chienEffect c.nEff c.nparEff (buf .sigma) (buf .sderiv) (buf .omega) (buf .blk))
  | .rsDec => checked c.blockOk (decEffect c.nEff c.nparEff (buf .blk))
  | .gfAdd f a b => if isElement f a && isElement f b then (.ok, byteEffect (a ^^^ b)) else (.badOperand, {})
  | .gfMul f a b => if isElement f a && isElement f b then (.ok, byteEffect (gfMul f a b)) else (.badOperand, {})
  | .gfDiv f a b =>
    if isElement f a && isElement f b then if b = 0 then (.gfDiv0, {}) else (.ok, byteEffect (gfDiv f a b))
    else (.badOperand, {})
  | .gfExp f a => (.ok, byteEffect (gfExp f a.toNat))
  | .gfLog f a =>
    if isElement f a then if a = 0 then (.gfLog0, {}) else (.ok, byteEffect (.ofNat 8 (gfLog f a)))
    else (.badOperand, {})
  | .fmtEnc p => (.ok, { result := some ((encode15 p).setWidth 32) })
  | .fmtDec obs =>
    (if 4 ≤ (nearest obs).dist then .fmtTooManyErrors else if 1 < (nearest obs).ties then .fmtAmbiguous else .ok,
      { result := some (fmtDecResult (nearest obs)) })
  | .symLookup v e =>
    match symbolNumber v e with
    | some sym => (.ok, { result := some (symLookupResult sym) })
    | none => (.badCombination, {})

theorem withParams_eq_run {ok : Bool} {body : State → ErrCode × State} {r : ErrCode × Effect} {s : State}
    (h : body s = Effect.run r s) : withParams ok body s = Effect.run (checked ok r) s := by
  cases ok
  · rfl
  · exact h

theorem runRsEnc_eq_run (s : State) : runRsEnc s =
    Effect.run (checked s.cfg.blockOk (.ok, encEffect s.cfg.kEff s.cfg.nparEff s.blk)) s :=
  withParams_eq_run (by simp [Effect.run, Effect.apply, encEffect, genEffect, genBody, setNparUsed])

theorem runRsOmega_eq_run (s : State) : runRsOmega s =
    Effect.run (checked s.cfg.nparOk (.ok, omegaEffect s.cfg.nparEff s.sigma s.syn)) s :=
  withParams_eq_run (by simp [Effect.run, Effect.apply, omegaEffect, omegaBody, setNparUsed])

/-- RS_DEC's correcting steps, in turn, make the writes of `correctEffect`. -/
theorem correctBody_eq_apply (s : State) :
    synBody (chienBody (omegaBody (bmBody (synBody (setNparUsed s.cfg.nparEff s))))) =
      (correctEffect s.cfg.nEff s.cfg.nparEff s.blk).apply s := by
  simp [Effect.apply, correctEffect, omegaEffect, bmEffect, chienEffect, synEffect, synBody, chienBody, omegaBody,
    bmBody, setNparUsed, setSynNz, setL, setNcorr]

theorem runRsDec_eq_run (s : State) :
    runRsDec s = Effect.run (checked s.cfg.blockOk (decEffect s.cfg.nEff s.cfg.nparEff s.blk)) s := by
  refine withParams_eq_run ?_
  have hnz : (synBody (setNparUsed s.cfg.nparEff s)).rsInfo.synNz =
      anyNonzero (syndromes s.blk s.cfg.nEff s.cfg.nparEff) s.cfg.nparEff := rfl
  simp only [hnz, correctBody_eq_apply, decEffect]
  split
  · rfl
  · simp_all [cleanBody, synBody, Effect.run, Effect.apply, cleanEffect, synEffect, setNparUsed, setSynNz, setL, setNcorr]

theorem runFmtDec_eq_run (obs : BitVec 15) (s : State) :
    runFmtDec obs s = Effect.run (effectOf (.fmtDec obs) s.cfg s.buf) s := by
  simp [runFmtDec, effectOf, Effect.run, Effect.apply]

/-- Every command's run makes the writes `effectOf` names, and no other. -/
theorem runOf_eq_run (i : Instr) (s : State) : runOf i s = Effect.run (effectOf i s.cfg s.buf) s := by
  cases i with
  | nop => rfl
  | rsGen => exact withParams_eq_run (body := fun s => (.ok, genBody s)) rfl
  | rsEnc => exact runRsEnc_eq_run s
  | rsSyn => exact withParams_eq_run (body := fun s => (.ok, setNparUsed s.cfg.nparEff (synBody s))) rfl
  | rsBm => exact withParams_eq_run (body := fun s => (.ok, setNparUsed s.cfg.nparEff (bmBody s))) rfl
  | rsOmega => exact runRsOmega_eq_run s
  | rsChien => exact withParams_eq_run (body := fun s => (.ok, setNparUsed s.cfg.nparEff (chienBody s))) rfl
  | rsDec => exact runRsDec_eq_run s
  | gfAdd f a b => simp only [runOf, runGfAdd, effectOf]; split <;> rfl
  | gfMul f a b => simp only [runOf, runGfMul, effectOf]; split <;> rfl
  | gfDiv f a b =>
    simp only [runOf, runGfDiv, effectOf]
    split
    · split <;> rfl
    · rfl
  | gfExp f a => rfl
  | gfLog f a =>
    simp only [runOf, runGfLog, effectOf]
    split
    · split <;> rfl
    · rfl
  | fmtEnc p => rfl
  | fmtDec obs => exact runFmtDec_eq_run obs s
  | symLookup v e => simp only [runOf, runSymLookup, effectOf]; cases symbolNumber v e <;> rfl

@[simp] theorem complete_buf (err : ErrCode) (s : State) (b : Buffer) : (complete err s).buf b = s.buf b := by
  cases b <;> rfl

/-- Every command answers the completion of its writes (40_command_execution.md R64, R66). -/
theorem exec_eq_effect (i : Instr) (s : State) : exec i s =
    .next (complete (effectOf i s.cfg s.buf).1 ((effectOf i s.cfg s.buf).2.apply s)) := by
  rw [exec_eq, runOf_eq_run]
  rfl

/-- Settles O13: the writes of a command are computed from CFG and the buffers alone. -/
theorem commandsReadNoFlag : Obligations.CommandsReadNoFlag := by
  intro i s
  let e := (effectOf i s.cfg s.buf).2
  refine ⟨(effectOf i s.cfg s.buf).1, fun b => (e.buf b).getD (s.buf b), e.result, e.l, e.ncorr, e.nparUsed, e.synNz, ?_⟩
  intro s' hcfg hbuf
  have hbufs : s'.buf = s.buf := funext hbuf
  refine ⟨_, exec_eq_effect i s', ?_⟩
  rw [hcfg, hbufs]
  refine ⟨rfl, hcfg, fun b => ?_, rfl, rfl, rfl, rfl, rfl⟩
  rw [complete_buf, Effect.apply_buf, hbufs]

/-! ### Bounds on RESULT, L and NCORR (10_state.md R23, R24) -/

theorem bmStep_l_le (syn : Poly) {q : Nat} {st : BmState} (h : st.l ≤ q) : (bmStep syn q st).l ≤ q + 1 := by
  unfold bmStep
  dsimp only
  split_ifs <;> dsimp only <;> omega

/-- The locator's length is at most the number of syndromes read. -/
theorem berlekampMassey_length_le (syn : Poly) (n : Nat) : (berlekampMassey syn n).2 ≤ n :=
  forUp_invariant (fun q (st : BmState) => st.l ≤ q) (Nat.le_refl 0) fun _ _ _ h => bmStep_l_le syn h

/-- At most one correction is counted per position. -/
theorem chienForney_count_le (sigma sderiv omega blk : Poly) (nb : Nat) :
    (chienForney sigma sderiv omega blk nb).2 ≤ nb := by
  refine forUp_invariant (fun i (r : Poly × Nat) => r.2 ≤ i) (Nat.le_refl 0) fun i _ t h => ?_
  dsimp only at h ⊢
  split_ifs <;> dsimp only <;> omega

theorem setWidth_toNat_lt {w : Nat} (v : BitVec w) (h : w ≤ 30) : (v.setWidth 32).toNat < 2 ^ 30 := by
  have hw : (2 : Nat) ^ w ≤ 2 ^ 30 := Nat.pow_le_pow_right (by decide) h
  have hv := v.isLt
  rw [BitVec.toNat_setWidth]
  exact lt_of_le_of_lt (Nat.mod_le _ _) (by omega)

/-- A value of at most `m` bits shifted to end below bit 30. -/
theorem shiftLeft_toNat_lt {v : Word} {m k : Nat} (hv : v.toNat < 2 ^ m) (hmk : m + k ≤ 30) :
    (v <<< k).toNat < 2 ^ 30 := by
  rw [BitVec.toNat_shiftLeft, Nat.shiftLeft_eq]
  calc v.toNat * 2 ^ k % 2 ^ 32 ≤ v.toNat * 2 ^ k := Nat.mod_le _ _
    _ < 2 ^ m * 2 ^ k := Nat.mul_lt_mul_of_pos_right hv (Nat.two_pow_pos k)
    _ = 2 ^ (m + k) := (Nat.pow_add 2 m k).symm
    _ ≤ 2 ^ 30 := Nat.pow_le_pow_right (by decide) hmk

theorem or_toNat_lt {v w : Word} (hv : v.toNat < 2 ^ 30) (hw : w.toNat < 2 ^ 30) : (v ||| w).toNat < 2 ^ 30 := by
  rw [BitVec.toNat_or]
  exact Nat.or_lt_two_pow hv hw

theorem ofNat_toNat_lt {n k : Nat} (h : n < k) : (BitVec.ofNat 32 n).toNat < k :=
  lt_of_le_of_lt (by simp [Nat.mod_le]) h

/-- The best candidate is a payload, its distance fits five bits and the ties six. -/
structure CandidateInRange (c : Candidate) : Prop where
  best : c.best < 32
  dist : c.dist ≤ 16
  ties : c.ties ≤ 32

theorem nearest_inRange (obs : BitVec 15) : CandidateInRange (nearest obs) := by
  obtain ⟨hbest, hdist, hties⟩ : (nearest obs).best < 32 ∧ (nearest obs).dist ≤ 16 ∧ (nearest obs).ties ≤ 32 := by
    refine forUp_invariant (fun p (c : Candidate) => c.best < 32 ∧ c.dist ≤ 16 ∧ c.ties ≤ p) (by decide) ?_
    rintro p hp c ⟨hb, hd, ht⟩
    unfold searchStep
    dsimp only
    split_ifs
    · exact ⟨hp, by dsimp only; omega, by dsimp only; omega⟩
    · exact ⟨hb, hd, by dsimp only; omega⟩
    · exact ⟨hb, hd, by omega⟩
  exact ⟨hbest, hdist, hties⟩

theorem fmtDecResult_toNat_lt {c : Candidate} (h : CandidateInRange c) : (fmtDecResult c).toNat < 2 ^ 30 := by
  obtain ⟨hb, hd, ht⟩ := h
  have hties : (BitVec.ofNat 32 c.ties).toNat < 2 ^ 6 := ofNat_toNat_lt (by omega)
  have hdist : (BitVec.ofNat 32 c.dist).toNat < 2 ^ 5 := ofNat_toNat_lt (by omega)
  have hbest : (BitVec.ofNat 32 c.best).toNat < 2 ^ 30 := ofNat_toNat_lt (by omega)
  have hpair (v : BitVec 3) : (v.setWidth 32).toNat < 2 ^ 3 := lt_of_le_of_lt (by simp [Nat.mod_le]) v.isLt
  exact or_toNat_lt (or_toNat_lt (or_toNat_lt (or_toNat_lt (shiftLeft_toNat_lt hties (by decide))
    (shiftLeft_toNat_lt hdist (by decide))) (shiftLeft_toNat_lt (hpair _) (by decide)))
    (shiftLeft_toNat_lt (hpair _) (by decide))) hbest

theorem symbolNumber_lt : ∀ version ecc : BitVec 3, ∀ sym ∈ symbolNumber version ecc, sym < 8 := by decide

theorem nparTable_lt : ∀ sym : BitVec 3, nparTable sym < 2 ^ 4 := by decide

theorem symLookupResult_toNat_lt {sym : Nat} (h : sym < 8) : (symLookupResult sym).toNat < 2 ^ 30 :=
  or_toNat_lt (shiftLeft_toNat_lt (ofNat_toNat_lt (nparTable_lt _)) (by decide)) (ofNat_toNat_lt (by omega))

/-! ### The shapes a command's writes can have -/

/-- `CommandWrites c buf i e`: `e` is what the command `i` may write with these contents of CFG and the buffers:
nothing, a value of RESULT below bit 30, or an RS command's writes behind its parameter check. -/
inductive CommandWrites (c : Cfg) (buf : Buffer → Poly) : Instr → Effect → Prop where
  | nothing (i : Instr) : CommandWrites c buf i {}
  | result (i : Instr) (v : Word) (hv : v.toNat < 2 ^ 30) (hrs : isRsCommand i = false) (hnop : i ≠ .nop) :
      CommandWrites c buf i { result := some v }
  | gen (h : c.nparOk = true) : CommandWrites c buf .rsGen (genEffect c.nparEff)
  | enc (h : c.blockOk = true) : CommandWrites c buf .rsEnc (encEffect c.kEff c.nparEff (buf .blk))
  | syn (h : c.blockOk = true) : CommandWrites c buf .rsSyn (synEffect c.nEff c.nparEff (buf .blk))
  | bm (h : c.nparOk = true) : CommandWrites c buf .rsBm (bmEffect c.nparEff (buf .syn))
  | omega (h : c.nparOk = true) : CommandWrites c buf .rsOmega (omegaEffect c.nparEff (buf .sigma) (buf .syn))
  | chien (h : c.blockOk = true) : CommandWrites c buf .rsChien
      (chienEffect c.nEff c.nparEff (buf .sigma) (buf .sderiv) (buf .omega) (buf .blk))
  | correct (h : c.blockOk = true) : CommandWrites c buf .rsDec (correctEffect c.nEff c.nparEff (buf .blk))
  | clean (h : c.blockOk = true) : CommandWrites c buf .rsDec (cleanEffect c.nEff c.nparEff (buf .blk))

/-- An RS command writes nothing where its parameter check fails, and its own writes where it holds. -/
theorem CommandWrites.checked {c : Cfg} {buf : Buffer → Poly} {i : Instr} {ok : Bool} {r : ErrCode × Effect}
    (h : ok = true → CommandWrites c buf i r.2) : CommandWrites c buf i (checked ok r).2 := by
  cases ok
  · exact .nothing i
  · exact h rfl

theorem CommandWrites.byte {c : Cfg} {buf : Buffer → Poly} {i : Instr} (v : Byte)
    (hrs : isRsCommand i = false := by rfl) (hnop : i ≠ .nop := by nofun) : CommandWrites c buf i (byteEffect v) :=
  .result i _ (setWidth_toNat_lt v (by decide)) hrs hnop

theorem effectOf_commandWrites (i : Instr) (c : Cfg) (buf : Buffer → Poly) :
    CommandWrites c buf i (effectOf i c buf).2 := by
  cases i with
  | nop => exact .nothing _
  | rsGen => exact .checked .gen
  | rsEnc => exact .checked .enc
  | rsSyn => exact .checked .syn
  | rsBm => exact .checked .bm
  | rsOmega => exact .checked .omega
  | rsChien => exact .checked .chien
  | rsDec =>
    refine .checked fun h => ?_
    unfold decEffect
    split
    · exact .correct h
    · exact .clean h
  | gfAdd f a b => simp only [effectOf]; split; exacts [.byte _, .nothing _]
  | gfMul f a b => simp only [effectOf]; split; exacts [.byte _, .nothing _]
  | gfDiv f a b =>
    simp only [effectOf]; repeat' split
    exacts [.nothing _, .byte _, .nothing _]
  | gfExp f a => exact .byte _
  | gfLog f a =>
    simp only [effectOf]; repeat' split
    exacts [.nothing _, .byte _, .nothing _]
  | fmtEnc p => exact .result _ _ (setWidth_toNat_lt _ (by decide)) (by rfl) (by nofun)
  | fmtDec obs => exact .result _ _ (fmtDecResult_toNat_lt (nearest_inRange obs)) (by rfl) (by nofun)
  | symLookup v e =>
    simp only [effectOf]
    cases h : symbolNumber v e with
    | none => exact .nothing _
    | some sym => exact .result _ _ (symLookupResult_toNat_lt (symbolNumber_lt v e sym h)) (by rfl) (by nofun)

/-! ### What a command leaves unchanged (10_state.md R26) -/

/-- The writes lie within what the roles table gives the command. -/
structure Effect.Within (i : Instr) (e : Effect) : Prop where
  buf : ∀ b, b ∉ writesBuffers i → e.buf b = none
  result : isRsCommand i = true ∨ i = .nop → e.result = none
  l : i ≠ .rsBm → i ≠ .rsDec → e.l = none
  ncorr : i ≠ .rsChien → i ≠ .rsDec → e.ncorr = none
  synNz : i ≠ .rsSyn → i ≠ .rsDec → e.synNz = none
  nparUsed : isRsCommand i = false → e.nparUsed = none

theorem CommandWrites.within {c : Cfg} {buf : Buffer → Poly} {i : Instr} {e : Effect} (h : CommandWrites c buf i e) :
    e.Within i := by
  cases h with
  | nothing =>
    exact ⟨fun b _ => by cases b <;> rfl, fun _ => rfl, fun _ _ => rfl, fun _ _ => rfl, fun _ _ => rfl, fun _ => rfl⟩
  | result _ v hv hrs hnop => exact ⟨fun b _ => by cases b <;> rfl, fun h => by simp [hrs, hnop] at h, fun _ _ => rfl,
      fun _ _ => rfl, fun _ _ => rfl, fun _ => rfl⟩
  | gen | enc | syn | bm | omega | chien | correct | clean =>
    constructor
    case buf =>
      intro b
      cases b <;> simp [writesBuffers, Effect.buf, genEffect, encEffect, synEffect, bmEffect, omegaEffect, chienEffect,
        correctEffect, cleanEffect]
    all_goals simp [isRsCommand, genEffect, encEffect, synEffect, bmEffect, omegaEffect, chienEffect, correctEffect,
      cleanEffect]

/-- The parity is written behind the data and within the block. -/
theorem coeff_withParity (blk rem : Poly) {k n j : Nat} (h : j < k ∨ k + n ≤ j) :
    coeff (withParity blk rem k n) j = coeff blk j :=
  forUp_frame (fun b => coeff b j) fun i hi b => coeff_setCoeff_ne b _ (by omega)

/-- The correction stays within the block. -/
theorem coeff_chienForney_of_ge (sigma sderiv omega blk : Poly) {nb j : Nat} (h : nb ≤ j) :
    coeff (chienForney sigma sderiv omega blk nb).1 j = coeff blk j := by
  refine forUp_frame (fun r : Poly × Nat => coeff r.1 j) fun i hi r => ?_
  dsimp only
  split_ifs
  · exact coeff_setCoeff_ne r.1 _ (by omega)
  · rfl

theorem blockLength_eq_nEff (c : Cfg) : blockLength c = c.nEff := rfl

/-- No command writes BLK past the block. -/
theorem CommandWrites.blk_tail {c : Cfg} {buf : Buffer → Poly} {i : Instr} {e : Effect} (h : CommandWrites c buf i e)
    {j : Nat} (hj : blockLength c ≤ j) : coeff (e.blk.getD (buf .blk)) j = coeff (buf .blk) j := by
  rw [blockLength_eq_nEff] at hj
  cases h with
  | enc => exact coeff_withParity _ _ (.inr hj)
  | chien | correct => exact coeff_chienForney_of_ge _ _ _ _ hj
  | nothing | result | gen | syn | bm | omega | clean => rfl

/-- RS_ENC leaves the data bytes alone (42_rs_encode.md R90). -/
theorem CommandWrites.enc_data {c : Cfg} {buf : Buffer → Poly} {e : Effect} (h : CommandWrites c buf .rsEnc e)
    {j : Nat} (hj : j < c.k.toNat) : coeff (e.blk.getD (buf .blk)) j = coeff (buf .blk) j := by
  cases h with
  | enc => exact coeff_withParity _ _ (.inl hj)
  | nothing => rfl
  | result _ v hv hrs => cases hrs

/-- Settles O14: a command's writes lie within its roles, and its completion writes only DONE, ERRCODE and the phase. -/
theorem commandsWriteOnlyTheirOwnState : Obligations.CommandsWriteOnlyTheirOwnState := by
  intro i s
  have hw := effectOf_commandWrites i s.cfg s.buf
  have hin := hw.within
  refine ⟨_, exec_eq_effect i s, rfl, rfl, rfl, rfl, rfl, rfl, rfl, rfl, rfl, rfl, rfl, ?_, ?_, ?_, ?_, ?_, ?_, ?_, ?_⟩
  · intro b hb
    rw [complete_buf, Effect.apply_buf, hin.buf b hb, Option.getD_none]
  · intro h
    simp [Effect.apply, hin.result h]
  · intro h h'
    simp [Effect.apply, hin.l h h']
  · intro h h'
    simp [Effect.apply, hin.ncorr h h']
  · intro h h'
    simp [Effect.apply, hin.synNz h h']
  · intro h
    simp [Effect.apply, hin.nparUsed h]
  · intro _ j hj
    exact hw.blk_tail hj
  · rintro rfl j hj
    exact hw.enc_data hj


/-- The values written to L, NCORR and RESULT are in the ranges of 10_state.md R23 and R24. -/
structure Effect.InRange (e : Effect) : Prop where
  l : ∀ v ∈ e.l, v.toNat ≤ 63
  ncorr : ∀ v ∈ e.ncorr, v.toNat ≤ 64
  result : ∀ v ∈ e.result, v.toNat < 2 ^ 30

theorem nparEff_le_of_nparOk {c : Cfg} (h : c.nparOk = true) : c.nparEff ≤ 63 := by
  simp only [Cfg.nparOk, Bool.and_eq_true, decide_eq_true_eq] at h
  exact h.2

theorem lengths_le_of_blockOk {c : Cfg} (h : c.blockOk = true) : c.nparEff ≤ 63 ∧ c.nEff ≤ 64 := by
  simp only [Cfg.blockOk, Bool.and_eq_true, decide_eq_true_eq] at h
  exact ⟨nparEff_le_of_nparOk h.1.1, h.2⟩

theorem ofNat7_toNat_le {n k : Nat} (h : n ≤ k) : (BitVec.ofNat 7 n).toNat ≤ k :=
  le_trans (by simp [Nat.mod_le]) h

theorem CommandWrites.inRange {c : Cfg} {buf : Buffer → Poly} {i : Instr} {e : Effect} (h : CommandWrites c buf i e) :
    e.InRange := by
  have hl (syn : Poly) (hn : c.nparEff ≤ 63) : (BitVec.ofNat 7 (berlekampMassey syn c.nparEff).2).toNat ≤ 63 :=
    ofNat7_toNat_le ((berlekampMassey_length_le syn _).trans hn)
  have hc (sigma sderiv omega blk : Poly) (hn : c.nEff ≤ 64) :
      (BitVec.ofNat 7 (chienForney sigma sderiv omega blk c.nEff).2).toNat ≤ 64 :=
    ofNat7_toNat_le ((chienForney_count_le sigma sderiv omega blk _).trans hn)
  cases h with
  | nothing | gen | enc | syn | omega => exact ⟨nofun, nofun, nofun⟩
  | result _ v hv => exact ⟨nofun, nofun, by rintro _ ⟨⟩; exact hv⟩
  | bm h => exact ⟨by rintro _ ⟨⟩; exact hl _ (nparEff_le_of_nparOk h), nofun, nofun⟩
  | chien h => exact ⟨nofun, by rintro _ ⟨⟩; exact hc _ _ _ _ (lengths_le_of_blockOk h).2, nofun⟩
  | correct h =>
    exact ⟨by rintro _ ⟨⟩; exact hl _ (lengths_le_of_blockOk h).1,
      by rintro _ ⟨⟩; exact hc _ _ _ _ (lengths_le_of_blockOk h).2, nofun⟩
  | clean => exact ⟨by rintro _ ⟨⟩; decide, by rintro _ ⟨⟩; decide, nofun⟩

end Sys2Proof.Proofs
end

section
/-! SUPPORT and proofs. The engine's invariant: it holds right after reset and every step keeps it. -/

namespace Sys2Proof.Proofs

open Sys2Proof.Machine Sys2Proof.Safety Sys2Proof.Claims

/-- The completion step of the running command makes the writes of a command, which is the one CMD_LAST decodes to
wherever it writes anything. -/
theorem runCommand_writes (s : State) : ∃ i err e, runCommand s = .next (complete err (e.apply s)) ∧
    CommandWrites s.cfg s.buf i e ∧ (decode s.cmdLast = .command i ∨ i = .nop) := by
  unfold runCommand
  cases decode s.cmdLast with
  | command i => exact ⟨i, _, _, exec_eq_effect i s, effectOf_commandWrites i s.cfg s.buf, .inl rfl⟩
  | illegal why => exact ⟨.nop, .illegalCmd, {}, rfl, .nothing _, .inr rfl⟩

/-- The engine's reset state meets the invariant, whatever the reset input's level. -/
theorem engineInv_resetEngine (s : State) : EngineInv (resetEngine s) where
  lastOp := by simp [State.reset, opField]
  busy := nofun
  latency := nofun
  held _ _ := rfl
  l := by simp [State.reset]
  ncorr := by simp [State.reset]
  result := by simp [State.reset]

/-- Settles O33: the reset state is a reset engine's. -/
theorem resetMeetsTheInvariant : Obligations.ResetMeetsTheInvariant := engineInv_resetEngine State.reset

theorem engineInv_agenda {s : State} (h : EngineInv s) (rest : List Event) : EngineInv { s with agenda := rest } :=
  { h with held := fun hp hs => congrArg (fun t : State => { t with agenda := rest }) (h.held hp hs) }

theorem engineInv_respond {s : State} (h : EngineInv s) (error : Bool) (data : Option Word) :
    EngineInv (respond error data s) :=
  { h with held := fun hp hs => congrArg (respond error data) (h.held hp hs) }

section Released
variable {s : State} (h : EngineInv s) (hpin : s.resetPin = false)
include h hpin

theorem engineInv_complete {e : Effect} (he : e.InRange) (err : ErrCode) : EngineInv (complete err (e.apply s)) where
  lastOp := h.lastOp
  busy := nofun
  latency := nofun
  held hp := absurd (hp.symm.trans hpin) nofun
  l := by
    cases hv : e.l with
    | none => simpa [Effect.apply, hv] using h.l
    | some v => simpa [Effect.apply, hv] using he.l v hv
  ncorr := by
    cases hv : e.ncorr with
    | none => simpa [Effect.apply, hv] using h.ncorr
    | some v => simpa [Effect.apply, hv] using he.ncorr v hv
  result := by
    cases hv : e.result with
    | none => simpa [Effect.apply, hv] using h.result
    | some v => simpa [Effect.apply, hv] using he.result v hv

theorem engineInv_accept (w : Word) : EngineInv (accept w s) :=
  { h with
    lastOp := rfl
    busy := fun _ => ⟨rfl, rfl⟩
    latency := fun _ => Nat.succ_pos _
    held := fun hp => absurd (hp.symm.trans hpin) nofun }

theorem engineInv_setBuf (b : Buffer) (p : Poly) : EngineInv (s.setBuf b p) := by
  cases b <;> exact { h with held := fun hp => absurd (hp.symm.trans hpin) nofun }

theorem engineInv_writeTarget (t : Target) (v : Word) : EngineInv (writeTarget t v s) := by
  have hheld {P : Prop} (hp : s.resetPin = true) : P := absurd (hp.symm.trans hpin) nofun
  cases t with
  | ctrl =>
    simp only [writeTarget, writeCtrl]
    split
    · exact engineInv_resetEngine s
    · exact { h with held := hheld }
  | status =>
    exact { h with
      busy := fun hb => ⟨by simp [writeTarget, (h.busy hb).1], (h.busy hb).2⟩
      held := hheld }
  | cmd =>
    simp only [writeTarget, writeCmd]
    split
    · exact { h with held := hheld }
    · exact engineInv_accept h hpin v
  | cfg => exact { h with held := hheld }
  | buffer b w => exact engineInv_setBuf h hpin b _
  | id | caps | result | rsInfo | unmapped => exact h

end Released

theorem engineInv_portAccess {s : State} (h : EngineInv s) (a : Access) : EngineInv (portAccess a s) := by
  rcases portAccess_cases a s with ⟨heq, -⟩ | ⟨heq, -⟩ | ⟨heq, hpin, -⟩ |
    ⟨hpin, -, -, ⟨off, -, heq⟩ | ⟨off, v, -, heq⟩⟩ <;> rw [heq] <;> apply engineInv_respond
  · exact h
  · exact h
  · exact { h with held := fun hp => absurd (hp.symm.trans hpin) nofun }
  · exact h
  · exact engineInv_writeTarget h hpin _ v

theorem engineInv_clockCycle {s t : State} {fin : Bool} (h : EngineInv s) (hst : clockCycle fin s = .next t) :
    EngineInv t := by
  rcases clockCycle_cases fin s with ⟨heq, -⟩ | ⟨heq, -⟩ | ⟨heq, hpin, -⟩ | ⟨heq, hpin, -, -, hlt⟩
  · cases heq.symm.trans hst
    exact engineInv_resetEngine s
  · cases heq.symm.trans hst
    exact h
  · obtain ⟨i, err, e, hrun, hw, -⟩ := runCommand_writes s
    cases (heq.trans hrun).symm.trans hst
    exact engineInv_complete h hpin hw.inRange err
  · cases heq.symm.trans hst
    exact { h with latency := fun _ => hlt, held := fun hp => absurd (hp.symm.trans hpin) nofun }

theorem engineInv_driveResetInput {s : State} (h : EngineInv s) (asserted : Bool) :
    EngineInv (driveResetInput asserted s) := by
  rcases driveResetInput_cases asserted s with ⟨heq, -, hsync⟩ | ⟨heq, -⟩ | ⟨heq, -⟩ <;> rw [heq]
  · exact { h with held := fun _ hs => absurd (hs.symm.trans hsync) nofun }
  · exact engineInv_resetEngine _
  · exact h

/-- Settles O34: each kind of event keeps the invariant. -/
theorem everyStepKeepsTheInvariant : Obligations.EveryStepKeepsTheInvariant := by
  intro s t h hst
  rcases step_cases s with ⟨-, heq⟩ | ⟨a, rest, -, heq⟩ | ⟨fin, rest, -, heq⟩ | ⟨lvl, rest, -, heq⟩ | ⟨rest, -, heq⟩
  · exact engineInv_clockCycle h (heq.symm.trans hst)
  · cases heq.symm.trans hst
    exact engineInv_portAccess (engineInv_agenda h rest) a
  · exact engineInv_clockCycle (engineInv_agenda h rest) (heq.symm.trans hst)
  · cases heq.symm.trans hst
    exact engineInv_driveResetInput (engineInv_agenda h rest) lvl
  · cases heq.symm.trans hst
    exact engineInv_resetEngine _

end Sys2Proof.Proofs
end

section
/-! SUPPORT and proofs. What one step does to the flags and the interrupt output (10_state.md R30, R33). -/

namespace Sys2Proof.Proofs

open Sys2Proof.Machine Sys2Proof.Safety Sys2Proof.Claims

/-! ### One step's effect on the flags -/

/-- Where CTRL, STATUS, CMD and the group-B targets stand in the window (10_state.md R14). -/
def StandsAt (off : Offset) : Target → Prop
  | .ctrl => off = 0x008
  | .status => off = 0x00C
  | .cmd => off = 0x010
  | .cfg | .result | .rsInfo | .buffer .. => IsGroupB off
  | .id | .caps | .unmapped => True

theorem targetOf_standsAt (off : Offset) : StandsAt off (targetOf off) := by
  have hoff (n : Nat) (hn : n < 1024 := by decide) (h : off.toNat = n) : off = BitVec.ofNat 10 n :=
    BitVec.eq_of_toNat_eq (by simp [h, Nat.mod_eq_of_lt hn])
  unfold targetOf
  dsimp only
  split_ifs with h0 h4 h8 hC h10 h14 h18 h1C hbuf
  · trivial
  · trivial
  · exact hoff 0x008 (h := h8)
  · exact hoff 0x00C (h := hC)
  · exact hoff 0x010 (h := h10)
  · exact .inl (hoff 0x014 (h := h14))
  · exact .inr (.inl (hoff 0x018 (h := h18)))
  · exact .inr (.inr (.inl (hoff 0x01C (h := h1C))))
  · simp only [Bool.and_eq_true, decide_eq_true_eq] at hbuf
    exact .inr (.inr (.inr ⟨hbuf.1, Nat.le_of_lt_succ hbuf.2⟩))
  · trivial

theorem isGroupB_of_groupB {off : Offset} (h : (targetOf off).groupB = true) : IsGroupB off := by
  have hat := targetOf_standsAt off
  cases ht : targetOf off with
  | cfg | result | rsInfo | buffer => rw [ht] at hat; exact hat
  | id | caps | ctrl | status | cmd | unmapped => simp [ht, Target.groupB] at h

/-- The flags: the fields of R30 and R33 with the phase. -/
structure Flags where
  ie : Bool
  done : Bool
  busyAcc : Bool
  cmdOvf : Bool
  errcode : ErrCode
  phase : Phase
  synNz : Bool

/-- The state's flags. -/
def flagsOf (s : State) : Flags := ⟨s.ie, s.done, s.busyAcc, s.cmdOvf, s.errcode, s.phase, s.rsInfo.synNz⟩

/-- The event `e` resets the engine, or may, with the reset input at level `pin`. -/
def mayResetBy (pin : Bool) (e : Event) : Bool := isReset e || (isCycle e && pin && Config.resetSynchronous)

theorem mayReset_eq (s : State) : mayReset s = mayResetBy s.resetPin (nextEvent s) := rfl

/-- What one event `e` can make of the flags `f` of an engine with its reset input at level `pin` and `w` in CMD_LAST
(10_state.md R33). -/
inductive FlagStep (pin : Bool) (w : Word) (f : Flags) (e : Event) : Flags → Prop where
  | kept : FlagStep pin w f e f
  | reset (h : mayResetBy pin e = true) : FlagStep pin w f e (flagsOf State.reset)
  | completed (hcycle : isCycle e = true) (hpin : pin = false) (hbusy : f.phase = .busy) (err : ErrCode) (nz : Bool)
      (hnz : f.synNz ≠ nz → decode w = .command .rsSyn ∨ decode w = .command .rsDec) :
      FlagStep pin w f e { f with errcode := err, done := true, phase := .idle, synNz := nz }
  | blocked (a : Access) (he : e = .access a) (hwidth : a.width = .word) (hb : IsGroupB a.off) (hbusy : f.phase = .busy) :
      FlagStep pin w f e { f with busyAcc := true }
  | ieWritten (v : Word) (he : e = .access (write32 0x008 v)) : FlagStep pin w f e { f with ie := v.getLsbD 0 }
  | statusWritten (v : Word) (he : e = .access (write32 0x00C v)) :
      FlagStep pin w f e { f with
        done := f.done && !v.getLsbD 1, busyAcc := f.busyAcc && !v.getLsbD 3, cmdOvf := f.cmdOvf && !v.getLsbD 4 }
  | dropped (v : Word) (he : e = .access (write32 0x010 v)) (hbusy : f.phase = .busy) :
      FlagStep pin w f e { f with cmdOvf := true }
  | accepted (v : Word) (he : e = .access (write32 0x010 v)) :
      FlagStep pin w f e { f with done := false, errcode := .ok, phase := .busy }

/-- The event `e` takes the flags of `s` to those of `t`. -/
abbrev FlagsBy (s : State) (e : Event) (t : State) : Prop :=
  FlagStep s.resetPin s.cmdLast (flagsOf s) e (flagsOf t)

theorem flagsOf_setBuf (s : State) (b : Buffer) (p : Poly) : flagsOf (s.setBuf b p) = flagsOf s := by
  cases b <;> rfl

theorem flagsBy_writeTarget (s : State) (off : Offset) (v : Word) :
    FlagsBy s (.access (write32 off v)) (writeTarget (targetOf off) v s) := by
  have hat := targetOf_standsAt off
  cases ht : targetOf off with
  | ctrl =>
    rw [ht] at hat
    cases (hat : off = 0x008)
    simp only [writeTarget, writeCtrl]
    split
    next hv => exact .reset (by simp [mayResetBy, isReset, isSoftReset, write32, hv])
    next => exact .ieWritten v rfl
  | status =>
    rw [ht] at hat
    cases (hat : off = 0x00C)
    exact .statusWritten v rfl
  | cmd =>
    rw [ht] at hat
    cases (hat : off = 0x010)
    simp only [writeTarget, writeCmd]
    split
    next hbusy => exact .dropped v rfl hbusy
    next => exact .accepted v rfl
  | buffer b w =>
    have hkept := flagsOf_setBuf s b (writeBufferWord (s.buf b) w v)
    simp only [writeTarget, FlagsBy, hkept]
    exact .kept
  | cfg | id | caps | result | rsInfo | unmapped => exact .kept

theorem flagsBy_portAccess (s : State) (a : Access) : FlagsBy s (.access a) (portAccess a s) := by
  rcases portAccess_cases a s with ⟨heq, -⟩ | ⟨heq, -⟩ | ⟨heq, -, hsup, hb, hbusy⟩ |
    ⟨-, -, -, ⟨off, -, heq⟩ | ⟨off, v, rfl, heq⟩⟩ <;> rw [heq]
  · exact .kept
  · exact .kept
  · have hwidth : a.width = .word := by
      simp only [Access.supported, Bool.and_eq_true, beq_iff_eq] at hsup
      exact hsup.1
    exact .blocked a rfl hwidth (isGroupB_of_groupB hb) hbusy
  · exact .kept
  · exact flagsBy_writeTarget s off v

theorem flagsBy_driveResetInput (s : State) (lvl : Bool) :
    FlagsBy s (.resetInput lvl) (driveResetInput lvl s) := by
  rcases driveResetInput_cases lvl s with ⟨heq, -⟩ | ⟨heq, -⟩ | ⟨heq, -⟩ <;> rw [heq]
  · exact .kept
  · exact .reset rfl
  · exact .kept

/-- Only RS_SYN and RS_DEC write SYN_NZ (10_state.md R24). -/
theorem CommandWrites.synNz_kept {c : Cfg} {buf : Buffer → Poly} {i : Instr} {e : Effect} (h : CommandWrites c buf i e)
    {old : Bool} (hne : old ≠ e.synNz.getD old) : i = .rsSyn ∨ i = .rsDec := by
  by_contra hi
  obtain ⟨hsyn, hdec⟩ := not_or.mp hi
  rw [h.within.synNz hsyn hdec] at hne
  exact hne rfl

theorem flagsBy_clockCycle {s t : State} {fin : Bool} (hinv : EngineInv s) (hst : clockCycle fin s = .next t) :
    FlagsBy s (.cycle fin) t := by
  rcases clockCycle_cases fin s with ⟨heq, hpin⟩ | ⟨heq, -⟩ | ⟨heq, hpin, hbusy, -⟩ | ⟨heq, -⟩
  · cases heq.symm.trans hst
    cases hsync : Config.resetSynchronous with
    | true => exact .reset (by simp [mayResetBy, isCycle, hpin, hsync])
    | false =>
      rw [hinv.held hpin hsync]
      exact .kept
  · cases heq.symm.trans hst
    exact .kept
  · obtain ⟨i, err, e, hrun, hw, hdec⟩ := runCommand_writes s
    cases (heq.trans hrun).symm.trans hst
    refine .completed rfl hpin hbusy err _ fun hne => ?_
    rcases hw.synNz_kept hne with rfl | rfl
    · exact .inl (hdec.resolve_right nofun)
    · exact .inr (hdec.resolve_right nofun)
  · cases heq.symm.trans hst
    exact .kept

theorem nextEvent_of_agenda {s : State} {e : Event} {rest : List Event} (h : s.agenda = e :: rest) : nextEvent s = e := by
  rw [nextEvent, h]
  rfl

/-- Every step takes the flags as its event can. -/
theorem flagsBy_step {s t : State} (hinv : EngineInv s) (hst : step s = .next t) : FlagsBy s (nextEvent s) t := by
  rcases step_cases s with ⟨ha, heq⟩ | ⟨a, rest, ha, heq⟩ | ⟨fin, rest, ha, heq⟩ | ⟨lvl, rest, ha, heq⟩ | ⟨rest, ha, heq⟩
  · rw [nextEvent, ha]
    exact flagsBy_clockCycle hinv (heq.symm.trans hst)
  · cases heq.symm.trans hst
    rw [nextEvent_of_agenda ha]
    exact flagsBy_portAccess { s with agenda := rest } a
  · rw [nextEvent_of_agenda ha]
    exact flagsBy_clockCycle (s := { s with agenda := rest }) (engineInv_agenda hinv rest) (heq.symm.trans hst)
  · cases heq.symm.trans hst
    rw [nextEvent_of_agenda ha]
    exact flagsBy_driveResetInput { s with agenda := rest } lvl
  · cases heq.symm.trans hst
    rw [nextEvent_of_agenda ha]
    exact .reset rfl

/-! ### The table of R33, row by row -/

/-- The event completes the running command. -/
abbrev Completes (pin : Bool) (f : Flags) (e : Event) (f' : Flags) : Prop :=
  isCycle e = true ∧ pin = false ∧ f.phase = .busy ∧ f'.phase = .idle

/-- The event is a supported write of CMD. -/
abbrev WritesCmd (e : Event) : Prop := ∃ v, e = .access (write32 0x010 v)

namespace FlagStep

variable {pin : Bool} {w : Word} {f f' : Flags} {e : Event} (h : FlagStep pin w f e f')
include h

theorem busy_set (hf : f.phase = .idle) (hf' : f'.phase = .busy) : WritesCmd e := by
  cases h with
  | accepted v he => exact ⟨v, he⟩
  | kept | reset | completed | blocked | ieWritten | statusWritten | dropped => simp_all [flagsOf, State.reset]

theorem busy_cleared (hf : f.phase = .busy) (hf' : f'.phase = .idle) : Completes pin f e f' ∨ mayResetBy pin e = true := by
  cases h with
  | completed hcycle hpin hbusy => exact .inl ⟨hcycle, hpin, hbusy, rfl⟩
  | reset hr => exact .inr hr
  | kept | blocked | ieWritten | statusWritten | dropped | accepted => simp_all

theorem done_set (hf : f.done = false) (hf' : f'.done = true) : Completes pin f e f' := by
  cases h with
  | completed hcycle hpin hbusy => exact ⟨hcycle, hpin, hbusy, rfl⟩
  | kept | reset | blocked | ieWritten | statusWritten | dropped | accepted => simp_all [flagsOf, State.reset]

theorem done_cleared (hf : f.done = true) (hf' : f'.done = false) :
    mayResetBy pin e = true ∨ WritesCmd e ∨ ∃ v, e = .access (write32 0x00C v) ∧ v.getLsbD 1 = true := by
  cases h with
  | reset hr => exact .inl hr
  | accepted v he => exact .inr (.inl ⟨v, he⟩)
  | statusWritten v he => exact .inr (.inr ⟨v, he, by simpa [hf] using hf'⟩)
  | kept | completed | blocked | ieWritten | dropped => simp_all

theorem errcode_set (hf : f.errcode = .ok) (hf' : f'.errcode ≠ .ok) : Completes pin f e f' := by
  cases h with
  | completed hcycle hpin hbusy => exact ⟨hcycle, hpin, hbusy, rfl⟩
  | kept | reset | blocked | ieWritten | statusWritten | dropped | accepted => simp_all [flagsOf, State.reset]

theorem errcode_cleared (hinv : f.phase = .busy → f.errcode = .ok) (hf : f.errcode ≠ .ok) (hf' : f'.errcode = .ok) :
    mayResetBy pin e = true ∨ WritesCmd e := by
  cases h with
  | reset hr => exact .inl hr
  | accepted v he => exact .inr ⟨v, he⟩
  | completed hcycle hpin hbusy => exact absurd (hinv hbusy) hf
  | kept | blocked | ieWritten | statusWritten | dropped => exact absurd hf' hf

theorem busyAcc_set (hf : f.busyAcc = false) (hf' : f'.busyAcc = true) :
    f.phase = .busy ∧ ∃ a, e = .access a ∧ a.width = .word ∧ IsGroupB a.off := by
  cases h with
  | blocked a he hwidth hb hbusy => exact ⟨hbusy, a, he, hwidth, hb⟩
  | kept | reset | completed | ieWritten | statusWritten | dropped | accepted => simp_all [flagsOf, State.reset]

theorem busyAcc_cleared (hf : f.busyAcc = true) (hf' : f'.busyAcc = false) :
    mayResetBy pin e = true ∨ ∃ v, e = .access (write32 0x00C v) ∧ v.getLsbD 3 = true := by
  cases h with
  | reset hr => exact .inl hr
  | statusWritten v he => exact .inr ⟨v, he, by simpa [hf] using hf'⟩
  | kept | completed | blocked | ieWritten | dropped | accepted => simp_all

theorem cmdOvf_set (hf : f.cmdOvf = false) (hf' : f'.cmdOvf = true) : f.phase = .busy ∧ WritesCmd e := by
  cases h with
  | dropped v he hbusy => exact ⟨hbusy, v, he⟩
  | kept | reset | completed | blocked | ieWritten | statusWritten | accepted => simp_all [flagsOf, State.reset]

theorem cmdOvf_cleared (hf : f.cmdOvf = true) (hf' : f'.cmdOvf = false) :
    mayResetBy pin e = true ∨ ∃ v, e = .access (write32 0x00C v) ∧ v.getLsbD 4 = true := by
  cases h with
  | reset hr => exact .inl hr
  | statusWritten v he => exact .inr ⟨v, he, by simpa [hf] using hf'⟩
  | kept | completed | blocked | ieWritten | dropped | accepted => simp_all

theorem synNz_changed (hne : f.synNz ≠ f'.synNz) : mayResetBy pin e = true ∨
    (Completes pin f e f' ∧ (decode w = .command .rsSyn ∨ decode w = .command .rsDec)) := by
  cases h with
  | reset hr => exact .inl hr
  | completed hcycle hpin hbusy err nz hnz => exact .inr ⟨⟨hcycle, hpin, hbusy, rfl⟩, hnz hne⟩
  | kept | blocked | ieWritten | statusWritten | dropped | accepted => exact absurd rfl hne

theorem ie_set (hf : f.ie = false) (hf' : f'.ie = true) : ∃ v, e = .access (write32 0x008 v) ∧ v.getLsbD 0 = true := by
  cases h with
  | ieWritten v he => exact ⟨v, he, hf'⟩
  | kept | reset | completed | blocked | statusWritten | dropped | accepted => simp_all [flagsOf, State.reset]

theorem ie_cleared (hf : f.ie = true) (hf' : f'.ie = false) :
    mayResetBy pin e = true ∨ ∃ v, e = .access (write32 0x008 v) ∧ v.getLsbD 0 = false := by
  cases h with
  | reset hr => exact .inl hr
  | ieWritten v he => exact .inr ⟨v, he, hf'⟩
  | kept | completed | blocked | statusWritten | dropped | accepted => simp_all

end FlagStep

theorem errFlag_iff (s : State) : s.errFlag = true ↔ s.errcode ≠ .ok := by
  unfold State.errFlag
  cases s.errcode <;> decide

/-- Settles O29: the rows of the table, each for the step's event. -/
theorem flagsChangeOnlyAsTabled : Obligations.FlagsChangeOnlyAsTabled := by
  intro s t hinv hst
  have h := flagsBy_step hinv hst
  refine ⟨h.busy_set, h.busy_cleared, h.done_set, h.done_cleared, fun hs ht => ?_, fun hs ht => ?_, h.busyAcc_set,
    h.busyAcc_cleared, h.cmdOvf_set, h.cmdOvf_cleared, h.synNz_changed⟩
  · have ht' := (errFlag_iff t).mp ht
    have hs' : s.errcode = .ok := by simpa [hs] using errFlag_iff s
    exact ⟨h.errcode_set hs' ht', ht'⟩
  · have ht' : t.errcode = .ok := by simpa [ht] using errFlag_iff t
    exact h.errcode_cleared (fun hbusy => (hinv.busy hbusy).2) ((errFlag_iff s).mp hs) ht'

/-- Settles O28: `irq` rises with DONE or with IE and falls with DONE or with IE. -/
theorem irqIsIeAndDone : Obligations.IrqIsIeAndDone := by
  refine ⟨fun _ => rfl, fun s t hinv hst => ?_⟩
  have h := flagsBy_step hinv hst
  simp only [State.irq, Bool.and_eq_true, Bool.and_eq_false_iff]
  refine ⟨fun hs ⟨hie, hdone⟩ => ?_, fun ⟨hie, hdone⟩ ht => ?_⟩
  · cases hd : s.done with
    | false =>
      obtain ⟨hcycle, hpin, hbusy, hidle⟩ := h.done_set hd hdone
      exact .inl ⟨hcycle, hpin, hbusy, hidle, hie⟩
    | true => exact .inr ⟨rfl, h.ie_set (hs.resolve_right (by simp [hd])) hie⟩
  · rcases ht with hie' | hdone'
    · rcases h.ie_cleared hie hie' with hr | hw
      · exact .inl hr
      · exact .inr (.inr (.inr hw))
    · rcases h.done_cleared hdone hdone' with hr | hc | hw
      · exact .inl hr
      · exact .inr (.inr (.inl hc))
      · exact .inr (.inl hw)

end Sys2Proof.Proofs
end

section
/-! SUPPORT and proofs. The registers as the host port reads and writes them, and the reset values (10_state.md R15 to R24, R34). -/

namespace Sys2Proof.Proofs

open Sys2Proof.Machine Sys2Proof.Safety Sys2Proof.Claims

/-! ### Supported accesses outside a hardware reset (20_memory.md R37 to R44) -/

theorem portAccess_read {s : State} {off : Offset} (hpin : s.resetPin = false) (hal : off.toNat % 4 = 0)
    (hfree : (targetOf off).groupB = true → s.phase = .idle) :
    portAccess (read32 off) s = answered false (some (readTarget (targetOf off) s)) s := by
  rcases portAccess_cases (read32 off) s with ⟨-, hp⟩ | ⟨-, -, hsup⟩ | ⟨-, -, -, hb, hbusy⟩ |
    ⟨-, -, -, ⟨off', ha, heq⟩ | ⟨off', v, ha, -⟩⟩
  · exact absurd (hp.symm.trans hpin) nofun
  · simp [Access.supported, read32, Access.width, Access.off, hal] at hsup
  · exact absurd (hbusy.symm.trans (hfree hb)) nofun
  · cases ha
    exact heq
  · cases ha

theorem portAccess_write {s : State} {off : Offset} (v : Word) (hpin : s.resetPin = false) (hal : off.toNat % 4 = 0)
    (hfree : (targetOf off).groupB = true → s.phase = .idle) :
    portAccess (write32 off v) s = answered false none (writeTarget (targetOf off) v s) := by
  rcases portAccess_cases (write32 off v) s with ⟨-, hp⟩ | ⟨-, -, hsup⟩ | ⟨-, -, -, hb, hbusy⟩ |
    ⟨-, -, -, ⟨off', ha, -⟩ | ⟨off', v', ha, heq⟩⟩
  · exact absurd (hp.symm.trans hpin) nofun
  · simp [Access.supported, write32, Access.width, Access.off, hal] at hsup
  · exact absurd (hbusy.symm.trans (hfree hb)) nofun
  · cases ha
  · cases ha
    exact heq

@[simp] theorem answered_response (error : Bool) (data : Option Word) (s : State) :
    (answered error data s).response = some ⟨error, data⟩ := rfl

/-! ### The fields of a register word -/

theorem append_getLsbD {v w : Nat} (x : BitVec v) (y : BitVec w) (k : Nat) :
    (BitVec.append x y).getLsbD k = if k < w then y.getLsbD k else x.getLsbD (k - w) :=
  BitVec.getLsbD_append

theorem append_extract_low {v w start len : Nat} (x : BitVec v) (y : BitVec w) (h : start + len ≤ w) :
    (BitVec.append x y).extractLsb' start len = y.extractLsb' start len :=
  BitVec.extractLsb'_append_eq_of_add_le h

theorem append_extract_high {v w start len : Nat} (x : BitVec v) (y : BitVec w) (h : w ≤ start) :
    (BitVec.append x y).extractLsb' start len = x.extractLsb' (start - w) len :=
  BitVec.extractLsb'_append_eq_of_le h

theorem ctrlWord_eq (s : State) : ctrlWord s = if s.ie then 1 else 0 := by
  unfold ctrlWord
  cases s.ie <;> rfl

theorem code_eq_errorNumber (err : ErrCode) : err.code = errorNumber err := by
  cases err <;> rfl

/-- The fields of STATUS at their bits (10_state.md R18). -/
theorem statusWord_fields (s : State) :
    (statusWord s).getLsbD 0 = s.busyFlag ∧ (statusWord s).getLsbD 1 = s.done ∧ (statusWord s).getLsbD 2 = s.errFlag ∧
    (statusWord s).getLsbD 3 = s.busyAcc ∧ (statusWord s).getLsbD 4 = s.cmdOvf ∧
    (statusWord s).extractLsb' 5 3 = 0 ∧ (statusWord s).extractLsb' 8 4 = s.errcode.code ∧
    (statusWord s).extractLsb' 12 4 = 0 ∧ (statusWord s).extractLsb' 16 8 = s.lastOp ∧
    (statusWord s).extractLsb' 24 8 = 0 := by
  simp [statusWord, HAppend.hAppend, append_getLsbD, append_extract_low, append_extract_high,
    -BitVec.getLsbD_eq_getElem, -BitVec.append_eq]

/-- The fields of RS_INFO at their bits (10_state.md R24). -/
theorem rsInfoWord_fields (r : RsInfo) :
    (rsInfoWord r).extractLsb' 0 7 = r.l ∧ (rsInfoWord r).getLsbD 7 = false ∧
    (rsInfoWord r).extractLsb' 8 7 = r.ncorr ∧ (rsInfoWord r).getLsbD 15 = false ∧ (rsInfoWord r).extractLsb' 16 6 = r.nparUsed ∧
    (rsInfoWord r).extractLsb' 22 2 = 0 ∧ (rsInfoWord r).getLsbD 24 = r.synNz ∧
    (rsInfoWord r).extractLsb' 25 7 = 0 := by
  simp [rsInfoWord, HAppend.hAppend, append_getLsbD, append_extract_low, append_extract_high,
    -BitVec.getLsbD_eq_getElem, -BitVec.append_eq]

/-- CFG as it reads holds the stored fields where a write puts them (10_state.md R21). -/
theorem cfgOfWord_cfgWord (c : Cfg) : cfgOfWord (cfgWord c) = c := by
  simp [cfgOfWord, cfgWord, HAppend.hAppend, append_getLsbD, append_extract_low, append_extract_high,
    -BitVec.getLsbD_eq_getElem, -BitVec.append_eq]

/-- CFG reads what was written with its reserved bits 0 (10_state.md R21). -/
theorem cfgWord_cfgOfWord (v : Word) : cfgWord (cfgOfWord v) = v &&& 0x000F7F7F := by
  refine word_ext fun k => ?_
  fin_cases k <;>
    simp [cfgWord, cfgOfWord, HAppend.hAppend, append_getLsbD, -BitVec.getLsbD_eq_getElem, -BitVec.append_eq]

/-! ### The registers (O21 to O26) -/

/-- With CFG = 0 both parameter checks fail. -/
theorem checks_fail_of_cfgWord_eq_zero {c : Cfg} (h : cfgWord c = 0) : c.nparOk = false ∧ c.blockOk = false := by
  have hc : c = cfgOfWord 0 := by rw [← h, cfgOfWord_cfgWord]
  subst hc
  decide

/-- An RS command whose parameter checks fail ends with BAD_PARAM and writes nothing (40_command_execution.md R67). -/
theorem effectOf_of_checks_fail {i : Instr} {c : Cfg} (buf : Buffer → Poly) (hrs : isRsCommand i = true)
    (h : c.nparOk = false ∧ c.blockOk = false) : effectOf i c buf = (.badParam, {}) := by
  obtain ⟨hn, hb⟩ := h
  cases i with
  | rsGen | rsBm | rsOmega => simp [effectOf, checked, hn]
  | rsEnc | rsSyn | rsChien | rsDec => simp [effectOf, checked, hb]
  | nop | gfAdd | gfMul | gfDiv | gfExp | gfLog | fmtEnc | fmtDec | symLookup => cases hrs

/-- Settles O21: the write stores the fields the read gives back, and a zero CFG fails both parameter checks. -/
theorem cfgStoresItsFieldsAsWritten : Obligations.CfgStoresItsFieldsAsWritten := by
  refine ⟨fun s v hpin hidle => ?_, rfl, fun s i hcfg hrs => ?_⟩
  · have hw := portAccess_write (off := 0x014) v hpin rfl fun _ => hidle
    have hr := portAccess_read (s := portAccess (write32 0x014 v) s) (off := 0x014) (by rw [hw]; exact hpin) rfl
      (fun _ => by rw [hw]; exact hidle)
    refine ⟨hw, ?_⟩
    rw [hr, answered_response, hw, ← cfgWord_cfgOfWord]
    rfl
  · rw [exec_eq_effect, effectOf_of_checks_fail s.buf hrs (checks_fail_of_cfgWord_eq_zero hcfg)]
    rfl

/-- Settles O23: each register's word has its fields at their bits. -/
theorem statusResultAndRsInfoReadTheirFields : Obligations.StatusResultAndRsInfoReadTheirFields := by
  intro s hpin
  refine ⟨⟨statusWord s, portAccess_read hpin rfl nofun, ?_⟩, fun hidle => portAccess_read hpin rfl fun _ => hidle,
    fun hidle => ⟨rsInfoWord s.rsInfo, portAccess_read hpin rfl fun _ => hidle, rsInfoWord_fields s.rsInfo⟩⟩
  obtain ⟨hbusy, hdone, herr, hacc, hovf, h5, hcode, h12, hop, h24⟩ := statusWord_fields s
  rw [← code_eq_errorNumber]
  exact ⟨hbusy, hdone, by rw [herr, hcode]; rfl, hacc, hovf, h5, hcode, h12, hop, h24⟩

/-- Settles O24: a write of STATUS is `writeStatus`, whose bits clear DONE, BUSY_ACC and CMD_OVF. -/
theorem statusWriteClearsItsW1cBits : Obligations.StatusWriteClearsItsW1cBits := by
  intro s v hpin
  refine ⟨?_, fun h hbusy => (h.busy hbusy).1⟩
  have hclear (flag bit : Bool) : (flag && !bit) = if bit then false else flag := by cases bit <;> simp
  rw [← hclear, ← hclear, ← hclear]
  exact portAccess_write v hpin rfl nofun

theorem writeCmd_resetPin (w : Word) (s : State) : (writeCmd w s).resetPin = s.resetPin := by
  unfold writeCmd
  split <;> rfl

theorem writeCmd_cmdLast (w : Word) (s : State) :
    (writeCmd w s).cmdLast = if s.phase = .idle then w else s.cmdLast := by
  unfold writeCmd
  cases hphase : s.phase <;> rfl

/-- Settles O25: a write of CMD is accepted while IDLE and dropped while BUSY. -/
theorem cmdReadsTheLastAcceptedWord : Obligations.CmdReadsTheLastAcceptedWord := by
  refine ⟨fun s hpin => portAccess_read hpin rfl nofun, fun s w hpin => ?_, rfl⟩
  have hw : portAccess (write32 0x010 w) s = answered false none (writeCmd w s) := portAccess_write w hpin rfl nofun
  have hr := portAccess_read (s := answered false none (writeCmd w s)) (off := 0x010)
    ((writeCmd_resetPin w s).trans hpin) rfl nofun
  rw [hw, hr, answered_response, ← writeCmd_cmdLast]
  rfl

/-- Settles O26: outside a hardware reset a read of ID or CAPS is always free. -/
theorem identityRegistersNeverChange : Obligations.IdentityRegistersNeverChange := fun _ hpin =>
  ⟨portAccess_read hpin rfl nofun, portAccess_read hpin rfl nofun⟩

/-! ### The reset values (10_state.md R34) -/

theorem coeff_reset_buf (b : Buffer) (i : Nat) : coeff (State.reset.buf b) i = 0 := by
  cases b <;> exact coeff_zeroPoly i

theorem reset_words : ctrlWord State.reset = 0 ∧ statusWord State.reset = 0 ∧ cfgWord State.reset.cfg = 0 ∧
    rsInfoWord State.reset.rsInfo = 0 := by decide

/-- The engine's reset state has the reset values, whatever the input's level, the last answer and the events to come. -/
theorem atResetValues_resetEngine (s : State) : AtResetValues (resetEngine s) := by
  obtain ⟨hctrl, hstatus, hcfg, hrsInfo⟩ := reset_words
  refine ⟨rfl, rfl, hctrl, hstatus, rfl, hcfg, rfl, hrsInfo, fun b i => ?_, rfl, rfl⟩
  have hbuf : (resetEngine s).buf b = State.reset.buf b := by cases b <;> rfl
  rw [hbuf, coeff_reset_buf]

/-- A soft reset is answered normally and leaves the engine's reset state (70_reset_and_hazards.md R129). -/
theorem portAccess_softReset {s : State} {v : Word} (hpin : s.resetPin = false) (hv : v.getLsbD 1 = true) :
    portAccess (write32 0x008 v) s = resetEngine (answered false none s) := by
  have hw : portAccess (write32 0x008 v) s = answered false none (writeCtrl v s) := portAccess_write v hpin rfl nofun
  rw [hw, writeCtrl, if_pos hv]
  rfl

/-- Settles O22: a write of CTRL sets IE or resets the engine. -/
theorem ctrlStoresIeOrResets : Obligations.CtrlStoresIeOrResets := by
  intro s v hpin
  refine ⟨?_, fun hv => ?_, fun hv => ?_⟩
  · rw [← ctrlWord_eq]
    exact portAccess_read hpin rfl nofun
  · have hw : portAccess (write32 0x008 v) s = answered false none (writeCtrl v s) := portAccess_write v hpin rfl nofun
    rw [hw, writeCtrl, hv]
    rfl
  · rw [portAccess_softReset hpin hv]
    have hreset := atResetValues_resetEngine (answered false none s)
    have hctrl : readTarget .ctrl (resetEngine (answered false none s)) = 0 := reset_words.1
    have hr := portAccess_read (s := resetEngine (answered false none s)) (off := 0x008) hpin rfl nofun
    refine ⟨hreset, rfl, rfl, ?_⟩
    rw [hr, answered_response, ← hctrl]
    rfl

/-- The release of an asserted reset input leaves the engine's reset state (70_reset_and_hazards.md R128). -/
theorem driveResetInput_release {s : State} (hpin : s.resetPin = true) :
    driveResetInput false s = resetEngine { s with resetPin := false } := by
  simp [driveResetInput, hpin]

/-- Settles O30: every one of these resets leaves the engine's reset state. -/
theorem resetLeavesTheResetValues : Obligations.ResetLeavesTheResetValues := by
  refine ⟨atResetValues_resetEngine State.reset, fun s v hpin hv => ?_, fun s hpin => ?_⟩
  · rw [portAccess_softReset hpin hv]
    exact atResetValues_resetEngine _
  · rw [driveResetInput_release hpin]
    exact atResetValues_resetEngine _

theorem step_of_agenda {s : State} {e : Event} {rest : List Event} (h : s.agenda = e :: rest) :
    step s = handleEvent e { s with agenda := rest } := by
  rw [step, h]

/-- Settles O60: each of these events leaves the engine's reset state, or no more than the input's new level. -/
theorem resetEventsLeaveTheResetValues : Obligations.ResetEventsLeaveTheResetValues := by
  intro s rest
  refine ⟨fun h => ?_, fun h hpin => ?_, fun h => ?_, fun fin h hpin => ?_, fun h hpin => ?_⟩
  · exact ⟨_, step_of_agenda h, atResetValues_resetEngine _, rfl, rfl⟩
  · refine ⟨_, step_of_agenda h, ?_, driveResetInput_resetPin false _, ?_⟩ <;>
      rw [driveResetInput_release (by exact hpin)]
    · exact atResetValues_resetEngine _
    · rfl
  · refine ⟨_, step_of_agenda h, driveResetInput_resetPin true _, ?_⟩
    cases hs : Config.resetSynchronous with
    | true => simp [driveResetInput, hs]
    | false =>
      simp only [driveResetInput, hs, if_true]
      exact ⟨rfl, atResetValues_resetEngine _⟩
  · have hc : clockCycle fin { s with agenda := rest } = .next (resetEngine { s with agenda := rest }) := if_pos hpin
    exact ⟨_, (step_of_agenda h).trans hc, atResetValues_resetEngine _, hpin, rfl⟩
  · rw [step_of_agenda h]
    simp [handleEvent, driveResetInput, hpin]

end Sys2Proof.Proofs
end

section
/-! SUPPORT and proofs. The window, the port's answer to each kind of access, and what accesses leave of a running
command (20_memory.md R35 to R46, 40_command_execution.md R65). -/

namespace Sys2Proof.Proofs

open Sys2Proof.Machine Sys2Proof.Safety Sys2Proof.Claims

/-! ### What stands at an offset (10_state.md R14, 20_memory.md R35, R36) -/

/-- Settles O27: the window starts at a page boundary, and an address in it has its distance from there as offset. -/
theorem windowIsOneKilobyteAtEngineBase : Obligations.WindowIsOneKilobyteAtEngineBase := by
  have hbase : Config.engineBase = Config.enginePage * 1024 := rfl
  refine ⟨by rw [hbase, Nat.mul_mod_left], fun off => ?_, fun addr hout => if_neg ?_⟩
  · have hin : off.toNat < Config.windowBytes := off.isLt
    simp [windowOffset, hin]
  · have hsize : Config.windowBytes = 1024 := rfl
    simp only [Bool.and_eq_true, decide_eq_true_eq]
    omega

/-- Past the eight registers the window holds buffer words from 0x100 to 0x27F and nothing elsewhere. -/
theorem targetOf_of_ge {off : Offset} (h : 0x020 ≤ off.toNat) : targetOf off =
    if 0x100 ≤ off.toNat ∧ off.toNat ≤ 0x27F then .buffer (bufferAt off.toNat) (Fin.ofNat 16 (off.toNat / 4))
    else .unmapped := by
  have hbuf : (decide (0x100 ≤ off.toNat) && decide (off.toNat < 0x280)) = true ↔
      0x100 ≤ off.toNat ∧ off.toNat ≤ 0x27F := by
    rw [Bool.and_eq_true, decide_eq_true_eq, decide_eq_true_eq, Nat.lt_succ_iff]
  simp (disch := omega) only [targetOf, if_neg, hbuf]

theorem targetOf_unmapped {off : Offset} (h : IsUnmapped off) : targetOf off = .unmapped := by
  unfold IsUnmapped at h
  rw [targetOf_of_ge (by omega), if_neg (by omega)]

/-- The register map's group B is R43's. -/
theorem groupB_targetOf_iff (off : Offset) : (targetOf off).groupB = true ↔ IsGroupB off := by
  refine ⟨isGroupB_of_groupB, ?_⟩
  rintro (rfl | rfl | rfl | hbuf)
  · rfl
  · rfl
  · rfl
  · rw [targetOf_of_ge (by omega), if_pos hbuf]
    rfl

theorem not_isGroupB_of_le {off : Offset} (h : off.toNat ≤ 0x010) : ¬ IsGroupB off := by
  rintro (rfl | rfl | rfl | ⟨hlo, -⟩)
  · exact absurd h (by decide)
  · exact absurd h (by decide)
  · exact absurd h (by decide)
  · omega

/-- The offset of word `w` of a buffer (20_memory.md R39). -/
def bufferOffset (b : Buffer) (w : Nat) : Offset := .ofNat 10 (b.base + 4 * w)

/-- The buffers' windows are 64-byte blocks between 0x100 and 0x27F. -/
theorem base_bounds (b : Buffer) : 0x100 ≤ b.base ∧ b.base ≤ 0x240 ∧ b.base % 64 = 0 := by
  cases b <;> decide

theorem bufferAt_base_add (b : Buffer) {r : Nat} (hr : r < 64) : bufferAt (b.base + r) = b := by
  obtain ⟨hlo, -, hal⟩ := base_bounds b
  have hblock : (b.base + r - 0x100) / 64 = b.base / 64 - 4 := by omega
  rw [bufferAt, hblock]
  cases b <;> rfl

theorem bufferOffset_toNat (b : Buffer) {w : Nat} (hw : w < 16) : (bufferOffset b w).toNat = b.base + 4 * w := by
  obtain ⟨-, hhi, -⟩ := base_bounds b
  exact (BitVec.toNat_ofNat _ 10).trans (Nat.mod_eq_of_lt (by omega))

theorem bufferOffset_aligned (b : Buffer) {w : Nat} (hw : w < 16) : (bufferOffset b w).toNat % 4 = 0 := by
  obtain ⟨-, -, hal⟩ := base_bounds b
  rw [bufferOffset_toNat b hw]
  omega

theorem targetOf_bufferOffset (b : Buffer) (w : Fin 16) : targetOf (bufferOffset b w) = .buffer b w := by
  obtain ⟨hlo, hhi, hal⟩ := base_bounds b
  have hat := bufferOffset_toNat b w.isLt
  have hword : Fin.ofNat 16 ((b.base + 4 * w.val) / 4) = w := Fin.ext (by rw [Fin.val_ofNat]; omega)
  rw [targetOf_of_ge (by omega), if_pos (by omega), hat, bufferAt_base_add b (by omega), hword]

/-! ### The port's answer to each kind of access (20_memory.md R37 to R43) -/

theorem zeroAnswer_eq_zeroData (a : Access) : zeroAnswer a = a.zeroData := by
  cases a <;> rfl

theorem supported_eq_false_iff (a : Access) : a.supported = false ↔ a.width ≠ .word ∨ a.off.toNat % 4 ≠ 0 := by
  rw [Access.supported, Bool.and_eq_false_iff, beq_eq_false_iff_ne, beq_eq_false_iff_ne]

/-- Settles O16: outside a hardware reset only the one supported kind of access gets past the port's check. -/
theorem unsupportedAccessIsRefused : Obligations.UnsupportedAccessIsRefused := by
  intro s a hpin h
  have hsup := (supported_eq_false_iff a).mpr h
  rw [zeroAnswer_eq_zeroData]
  simp only [portAccess, hpin, hsup, Bool.false_eq_true, if_false]
  rfl

/-- Settles O17: nothing at an unmapped offset is of group B, is read or is written. -/
theorem unmappedOffsetsReadZero : Obligations.UnmappedOffsetsReadZero := by
  intro s off v hpin hal hun
  have ht := targetOf_unmapped hun
  have hr := portAccess_read hpin hal (by rw [ht]; nofun)
  have hw := portAccess_write v hpin hal (by rw [ht]; nofun)
  rw [ht] at hr hw
  exact ⟨hr, hw⟩

/-- A supported group-B access while BUSY is blocked (20_memory.md R43). -/
theorem portAccess_blocked {s : State} {a : Access} (hpin : s.resetPin = false) (hbusy : s.phase = .busy)
    (hsup : a.supported = true) (hb : IsGroupB a.off) :
    portAccess a s = answered false a.zeroData { s with busyAcc := true } := by
  have hb := (groupB_targetOf_iff a.off).mpr hb
  rcases portAccess_cases a s with ⟨-, hp⟩ | ⟨-, -, hs⟩ | ⟨heq, -⟩ | ⟨-, -, hidle, -⟩
  · exact absurd (hp.symm.trans hpin) nofun
  · exact absurd (hs.symm.trans hsup) nofun
  · exact heq
  · exact absurd (hbusy.symm.trans (hidle hb)) nofun

theorem read32_supported {off : Offset} (hal : off.toNat % 4 = 0) : (read32 off).supported = true := by
  simp [Access.supported, read32, Access.width, Access.off, hal]

theorem write32_supported {off : Offset} (v : Word) (hal : off.toNat % 4 = 0) : (write32 off v).supported = true := by
  simp [Access.supported, write32, Access.width, Access.off, hal]

/-- Settles O18: these writes reach a target that takes none, or are blocked. -/
theorem readOnlyRegistersIgnoreWrites : Obligations.ReadOnlyRegistersIgnoreWrites := by
  intro s off v hpin hoff
  refine ⟨fun hidle => ?_, fun _ hid => ?_, fun hbusy hresult => ?_⟩
  · rcases hoff with rfl | rfl | rfl | rfl <;> exact portAccess_write v hpin rfl fun _ => hidle
  · rcases hid with rfl | rfl <;> exact portAccess_write v hpin rfl nofun
  · rcases hresult with rfl | rfl
    · exact portAccess_blocked hpin hbusy (write32_supported v rfl) (.inr (.inl rfl))
    · exact portAccess_blocked hpin hbusy (write32_supported v rfl) (.inr (.inr (.inl rfl)))

/-- Settles O19: a group-B access is blocked, and the registers up to CMD are not of group B. -/
theorem groupBIsBlockedWhileBusy : Obligations.GroupBIsBlockedWhileBusy := by
  intro s off v hpin hbusy hal
  refine ⟨fun hb => ⟨?_, ?_⟩, fun hle => ⟨_, portAccess_read hpin hal fun hb => ?_⟩⟩
  · exact portAccess_blocked hpin hbusy (read32_supported hal) hb
  · exact portAccess_blocked hpin hbusy (write32_supported v hal) hb
  · exact absurd (isGroupB_of_groupB hb) (not_isGroupB_of_le hle)

/-! ### Buffer words (20_memory.md R39, R40) -/

/-- The byte at each index after a word is written: the word's four bytes in its place, and the old byte elsewhere. -/
theorem coeff_writeBufferWord (p : Poly) (w : Fin 16) (v : Word) (i : Nat) :
    coeff (writeBufferWord p w v) i =
      if i = 4 * w.val + 3 then v.extractLsb' 24 8
      else if i = 4 * w.val + 2 then v.extractLsb' 16 8
      else if i = 4 * w.val + 1 then v.extractLsb' 8 8
      else if i = 4 * w.val then v.extractLsb' 0 8 else coeff p i := by
  have hin (k : Nat) (hk : k ≤ 3) : 4 * w.val + k < 64 := by omega
  have h0 : 4 * w.val < 64 := hin 0 (by decide)
  simp only [writeBufferWord, coeff_setCoeff, h0, hin 1 (by decide), hin 2 (by decide), hin 3 (by decide), and_true]

theorem coeff_writeBufferWord_outside (p : Poly) {w : Fin 16} (v : Word) {i : Nat}
    (h : i < 4 * w.val ∨ 4 * w.val + 4 ≤ i) : coeff (writeBufferWord p w v) i = coeff p i := by
  rw [coeff_writeBufferWord, if_neg (by omega), if_neg (by omega), if_neg (by omega), if_neg (by omega)]

/-- Settles O20: a word's offset leads to its buffer and its place there, and the write sets its four bytes. -/
theorem bufferWordsAreLittleEndian : Obligations.BufferWordsAreLittleEndian := by
  intro s b w v hpin hidle hw
  have ht : targetOf (bufferOffset b w) = .buffer b ⟨w, hw⟩ := targetOf_bufferOffset b ⟨w, hw⟩
  have hread := portAccess_read hpin (bufferOffset_aligned b hw) fun _ => hidle
  have hwrite := portAccess_write v hpin (bufferOffset_aligned b hw) fun _ => hidle
  rw [ht] at hread hwrite
  have hbyte := coeff_writeBufferWord (s.buf b) ⟨w, hw⟩ v
  refine ⟨hread, _, hwrite, ?_, ?_, ?_, ?_, fun i hi => coeff_writeBufferWord_outside _ v hi,
    fun b' => setBuf_buf s b b' _⟩ <;> simp [hbyte]

/-! ### One access at a time (20_memory.md R46) -/

theorem writeTarget_agenda (t : Target) (v : Word) (s : State) (rest : List Event) :
    writeTarget t v { s with agenda := rest } = { writeTarget t v s with agenda := rest } := by
  cases t with
  | ctrl => simp only [writeTarget, writeCtrl]; split <;> rfl
  | cmd => simp only [writeTarget, writeCmd]; split <;> rfl
  | buffer b w => cases b <;> rfl
  | status | cfg | id | caps | result | rsInfo | unmapped => rfl

theorem readTarget_agenda (t : Target) (s : State) (rest : List Event) :
    readTarget t { s with agenda := rest } = readTarget t s := by
  cases t with
  | buffer b w => cases b <;> rfl
  | id | caps | ctrl | status | cmd | cfg | result | rsInfo | unmapped => rfl

theorem busAccess_agenda (a : Access) (s : State) (rest : List Event) :
    busAccess a { s with agenda := rest } = { busAccess a s with agenda := rest } := by
  have hblocked : (targetOf a.off).blocked { s with agenda := rest } = (targetOf a.off).blocked s := rfl
  unfold busAccess
  rw [hblocked]
  split
  · rfl
  · cases a with
    | read w off => simp only [readTarget_agenda]; rfl
    | write w off v => simp only [writeTarget_agenda]; rfl

/-- The port neither reads nor writes the events to come. -/
theorem portAccess_agenda (a : Access) (s : State) (rest : List Event) :
    portAccess a { s with agenda := rest } = { portAccess a s with agenda := rest } := by
  unfold portAccess
  rw [busAccess_agenda]
  dsimp only
  split
  · rfl
  · split <;> rfl

theorem portAccess_answers (a : Access) (s : State) : ∃ r, (portAccess a s).response = some r := by
  rcases portAccess_cases a s with ⟨heq, -⟩ | ⟨heq, -⟩ | ⟨heq, -⟩ | ⟨-, -, -, ⟨off, -, heq⟩ | ⟨off, v, -, heq⟩⟩ <;>
    exact ⟨_, by rw [heq, respond_response]⟩

/-- Settles O9: the step is the access's whole effect, which the rest of the agenda has no part in. -/
theorem accessesTakeEffectOneAtATime : Obligations.AccessesTakeEffectOneAtATime := by
  intro s a rest h
  have hstep : step s = .next (portAccess a { s with agenda := rest }) := step_of_agenda h
  exact ⟨by rw [hstep, portAccess_agenda], portAccess_answers a s⟩

/-! ### What accesses leave of a running command (20_memory.md R43, 40_command_execution.md R65) -/

theorem sameCommandState_refl (s : State) : SameCommandState s s := ⟨rfl, rfl, rfl, fun _ => rfl⟩

theorem sameCommandState_trans {s t u : State} (h : SameCommandState s t) (h' : SameCommandState t u) :
    SameCommandState s u :=
  ⟨h.cfg.trans h'.cfg, h.result.trans h'.result, h.rsInfo.trans h'.rsInfo, fun b => (h.buf b).trans (h'.buf b)⟩

/-- Two states that look alike to a command look alike after its writes and its completion. -/
theorem sameCommandState_complete_apply {s t : State} (h : SameCommandState s t) (err : ErrCode) (e : Effect) :
    SameCommandState (complete err (e.apply s)) (complete err (e.apply t)) where
  cfg := h.cfg
  result := congrArg e.result.getD h.result
  rsInfo := by simp only [complete_rsInfo, Effect.apply, h.rsInfo]
  buf b := by simp only [complete_buf, Effect.apply_buf, h.buf b]

/-- `t` is BUSY with the command that `s` holds in CMD_LAST, and looks like `s` to it. -/
structure StillRuns (s t : State) : Prop where
  phase : t.phase = .busy
  cmdLast : t.cmdLast = s.cmdLast
  same : SameCommandState s t

theorem StillRuns.trans {s t u : State} (h : StillRuns s t) (h' : StillRuns t u) : StillRuns s u :=
  ⟨h'.phase, h'.cmdLast.trans h.cmdLast, sameCommandState_trans h.same h'.same⟩

theorem StillRuns.refl {s : State} (hbusy : s.phase = .busy) : StillRuns s s :=
  ⟨hbusy, rfl, sameCommandState_refl s⟩

/-- IE, the sticky flags and the port's answer are nothing to a running command (40_command_execution.md R65). -/
theorem StillRuns.flags {s t : State} (h : StillRuns s t) (ie done busyAcc cmdOvf : Bool) (response : Option Response) :
    StillRuns s { t with ie := ie, done := done, busyAcc := busyAcc, cmdOvf := cmdOvf, response := response } :=
  ⟨h.phase, h.cmdLast, ⟨h.same.cfg, h.same.result, h.same.rsInfo, h.same.buf⟩⟩

/-- While BUSY a write outside group B, other than a soft reset, is one of flags. -/
theorem stillRuns_writeTarget {s : State} {off : Offset} {v : Word} (hbusy : s.phase = .busy)
    (hfree : (targetOf off).groupB = true → s.phase = .idle) (hsoft : isSoftReset (.write .word off v) = false) :
    StillRuns s (writeTarget (targetOf off) v s) := by
  have hgroupA (hb : (targetOf off).groupB = true) : False := absurd (hbusy.symm.trans (hfree hb)) nofun
  have hat := targetOf_standsAt off
  cases ht : targetOf off with
  | ctrl =>
    rw [ht] at hat
    cases (hat : off = 0x008)
    have hsrst : v.getLsbD 1 = false := by simpa [isSoftReset] using hsoft
    simp only [writeTarget, writeCtrl, hsrst]
    exact (StillRuns.refl hbusy).flags _ _ _ _ _
  | cmd =>
    simp only [writeTarget, writeCmd, if_pos hbusy]
    exact (StillRuns.refl hbusy).flags _ _ _ _ _
  | status => exact (StillRuns.refl hbusy).flags _ _ _ _ _
  | id | caps | unmapped => exact .refl hbusy
  | cfg | result | rsInfo | buffer => exact (hgroupA (by rw [ht]; rfl)).elim

/-- Whatever an access does to a BUSY engine short of a soft reset, the command runs on undisturbed. -/
theorem stillRuns_portAccess {s : State} {a : Access} (hbusy : s.phase = .busy) (hsoft : isSoftReset a = false) :
    StillRuns s (portAccess a s) := by
  have hrespond {t : State} (h : StillRuns s t) (error : Bool) (data : Option Word) :
      StillRuns s (respond error data t) := h.flags _ _ _ _ _
  rcases portAccess_cases a s with ⟨heq, -⟩ | ⟨heq, -⟩ | ⟨heq, -⟩ |
    ⟨-, -, hfree, ⟨off, -, heq⟩ | ⟨off, v, rfl, heq⟩⟩ <;> rw [heq] <;> apply hrespond
  · exact .refl hbusy
  · exact .refl hbusy
  · exact (StillRuns.refl hbusy).flags _ _ true _ _
  · exact .refl hbusy
  · exact stillRuns_writeTarget hbusy hfree hsoft

theorem stillRuns_foldl_portAccess (accesses : List Access) {s : State} (hbusy : s.phase = .busy)
    (hsoft : ∀ a ∈ accesses, isSoftReset a = false) :
    StillRuns s (accesses.foldl (fun s a => portAccess a s) s) := by
  induction accesses generalizing s with
  | nil => exact .refl hbusy
  | cons a as ih =>
    obtain ⟨ha, has⟩ := List.forall_mem_cons.mp hsoft
    have h := stillRuns_portAccess hbusy ha
    exact h.trans (ih h.phase has)

/-- The completion of the same command in states that look alike to it gives one code and states that look alike. -/
theorem runCommand_sameCommandState {s t : State} (hcmd : t.cmdLast = s.cmdLast) (h : SameCommandState s t) :
    ∃ u u', runCommand s = .next u ∧ runCommand t = .next u' ∧ u.errcode = u'.errcode ∧ SameCommandState u u' := by
  have hbuf : t.buf = s.buf := (funext h.buf).symm
  unfold runCommand
  rw [hcmd]
  cases decode s.cmdLast with
  | command i =>
    refine ⟨_, _, exec_eq_effect i s, exec_eq_effect i t, ?_⟩
    rw [← h.cfg, hbuf]
    exact ⟨rfl, sameCommandState_complete_apply h _ _⟩
  | illegal why => exact ⟨_, _, rfl, rfl, rfl, sameCommandState_complete_apply h .illegalCmd {}⟩

/-- Settles O12: the accesses leave the command running and all that it reads or writes, so it completes alike. -/
theorem hostAccessesCannotDisturbARunningCommand : Obligations.HostAccessesCannotDisturbARunningCommand := by
  intro s accesses hbusy _ hsoft
  obtain ⟨hphase, hcmd, hsame⟩ := stillRuns_foldl_portAccess accesses hbusy hsoft
  exact ⟨hphase, hcmd, hsame, runCommand_sameCommandState hcmd hsame⟩

end Sys2Proof.Proofs
end

section
/-! SUPPORT and proofs. The fields of a command word, the opcode map read by fields, and decoding as the inverse of
encoding (30_encoding.md R53 to R56). -/

namespace Sys2Proof.Proofs

open Sys2Proof.Machine Sys2Proof.Claims Sys2Proof.Laws

/-! ### The fields of a command word (30_encoding.md R53) -/

/-- F, bit [8], as a bit vector (`fieldSelect` is the field it selects). -/
def fField (w : Word) : BitVec 1 := w.extractLsb' 8 1

/-- The reserved bits [15:9]. -/
def reservedField (w : Word) : BitVec 7 := w.extractLsb' 9 7

/-- ARG, bits [31:16]. -/
def argField (w : Word) : BitVec 16 := w.extractLsb' 16 16

/-- A word is its four fields, one behind the other. -/
theorem word_eq_append_fields (w : Word) :
    w = (argField w ++ (reservedField w ++ (fField w ++ opField w)) : BitVec (16 + (7 + (1 + 8)))) := by
  have hlow : w.extractLsb' 8 1 ++ w.extractLsb' 0 8 = w.extractLsb' 0 (1 + 8) :=
    BitVec.extractLsb'_append_extractLsb'_eq_extractLsb' rfl
  have hmid : w.extractLsb' 9 7 ++ w.extractLsb' 0 (1 + 8) = w.extractLsb' 0 (7 + (1 + 8)) :=
    BitVec.extractLsb'_append_extractLsb'_eq_extractLsb' rfl
  unfold argField reservedField fField opField
  rw [hlow, hmid]
  exact (BitVec.extractLsb'_append_extractLsb' (w := 16) (len := 7 + (1 + 8)) (x := w)).symm

theorem word_eq_iff_fields {v w : Word} : v = w ↔
    opField v = opField w ∧ fField v = fField w ∧ reservedField v = reservedField w ∧ argField v = argField w := by
  constructor
  · rintro rfl
    exact ⟨rfl, rfl, rfl, rfl⟩
  · rintro ⟨hop, hf, hres, harg⟩
    rw [word_eq_append_fields v, word_eq_append_fields w, hop, hf, hres, harg]

section CommandWord
variable (op : Byte) (f : BitVec 1) (arg : BitVec 16)

@[simp] theorem opField_commandWord : opField (commandWord op f arg) = op := by
  simp [opField, commandWord, HAppend.hAppend, append_extract_low, -BitVec.append_eq]

@[simp] theorem fField_commandWord : fField (commandWord op f arg) = f := by
  simp [fField, commandWord, HAppend.hAppend, append_extract_low, append_extract_high, -BitVec.append_eq]

@[simp] theorem reservedField_commandWord : reservedField (commandWord op f arg) = 0 := by
  simp [reservedField, commandWord, HAppend.hAppend, append_extract_low, append_extract_high, -BitVec.append_eq]

@[simp] theorem argField_commandWord : argField (commandWord op f arg) = arg := by
  simp [argField, commandWord, HAppend.hAppend, append_extract_high, -BitVec.append_eq]

end CommandWord

theorem eq_encode_iff {w : Word} {i : Instr} : w = encode i ↔
    opField w = i.opcode ∧ fField w = i.fBit ∧ reservedField w = 0 ∧ argField w = i.arg := by
  rw [word_eq_iff_fields, encode, opField_commandWord, fField_commandWord, reservedField_commandWord,
    argField_commandWord]

theorem extract_extract {n start len : Nat} (x : BitVec n) (start' len' : Nat) (h : start' + len' ≤ len) :
    (x.extractLsb' start len).extractLsb' start' len' = x.extractLsb' (start + start') len' := by
  refine BitVec.eq_of_getLsbD_eq fun k hk => ?_
  have hk' : start' + k < len := by omega
  simp [hk, hk', Nat.add_assoc]

/-- A field of ARG is a field of the word. -/
theorem argField_extract (w : Word) (start len : Nat) (h : start + len ≤ 16) :
    (argField w).extractLsb' start len = w.extractLsb' (16 + start) len := extract_extract w start len h

theorem fField_eq_ofBool (w : Word) : fField w = BitVec.ofBool (w.getLsbD 8) := by
  refine BitVec.eq_of_getLsbD_eq fun k hk => ?_
  obtain rfl : k = 0 := by omega
  simp [fField]

@[simp] theorem bit_fieldSelect (w : Word) : (fieldSelect w).bit = fField w := by
  rw [fField_eq_ofBool, fieldSelect]
  cases w.getLsbD 8 <;> rfl

theorem bit_inj {f g : GField} (h : f.bit = g.bit) : f = g := by
  cases f <;> cases g
  exacts [rfl, absurd h (by decide), absurd h (by decide), rfl]

theorem extract_bit_eq_zero_iff {n : Nat} (x : BitVec n) (k : Nat) : x.extractLsb' k 1 = 0 ↔ x.getLsbD k = false := by
  simp [BitVec.eq_of_getLsbD_eq_iff]

/-! ### The opcode map by fields (30_encoding.md R54 to R57) -/

/-- The "must be 0" F bit of an opcode (30_encoding.md R53). -/
def fMustBeZero (op : Byte) : BitVec 1 := if opIsGf op then 0 else 1

/-- The bits of the word that are 0 in every command of its opcode are 0 (30_encoding.md R53, R54). -/
structure FixedBitsZero (w : Word) : Prop where
  reserved : reservedField w = 0
  f : fField w &&& fMustBeZero (opField w) = 0
  arg : argField w &&& argMustBeZero (opField w) = 0

/-- A row fixes OP and the bits that must be 0 with that OP. -/
theorem opcodeMap_fields : ∀ r ∈ opcodeMap,
    (fField r.pat = 0 ∧ reservedField r.pat = 0 ∧ argField r.pat = 0) ∧
    opField r.mask = 0xFF ∧ fField r.mask = fMustBeZero (opField r.pat) ∧ reservedField r.mask = 0x7F ∧
    argField r.mask = argMustBeZero (opField r.pat) := by
  decide

/-- A word hits a row exactly when it has the row's OP and no bit set that must be 0 with it. -/
theorem hits_iff {r : OpRow} (hr : r ∈ opcodeMap) (w : Word) :
    r.hits w = true ↔ opField w = opField r.pat ∧ FixedBitsZero w := by
  obtain ⟨⟨hf, hres, harg⟩, hopm, hfm, hresm, hargm⟩ := opcodeMap_fields r hr
  have hfields : r.hits w = true ↔ opField w &&& 0xFF = opField r.pat ∧ fField w &&& fMustBeZero (opField r.pat) = 0 ∧
      reservedField w &&& 0x7F = 0 ∧ argField w &&& argMustBeZero (opField r.pat) = 0 := by
    rw [OpRow.hits, beq_iff_eq, word_eq_iff_fields, hf, hres, harg, ← hopm, ← hfm, ← hresm, ← hargm]
    simp only [opField, fField, reservedField, argField, BitVec.extractLsb'_and]
  have hop : opField w &&& 0xFF = opField w := BitVec.and_allOnes
  have hreserved : reservedField w &&& 0x7F = reservedField w := BitVec.and_allOnes
  rw [hfields, hop, hreserved]
  constructor
  · rintro ⟨h, hf, hres, harg⟩
    exact ⟨h, hres, by rwa [h], by rwa [h]⟩
  · rintro ⟨h, hres, hf, harg⟩
    exact ⟨h, by rwa [← h], hres, by rwa [← h]⟩

/-- The rows' OP values differ (30_encoding.md R56). -/
theorem opcodeMap_opcodes_nodup : (opcodeMap.map fun r => opField r.pat).Nodup := by decide

/-- The first ground of R57 names the opcodes of the map. -/
theorem opAssigned_iff : ∀ op : Byte, opAssigned op = true ↔ ∃ r ∈ opcodeMap, opField r.pat = op := by
  decide

/-- At most one row matches a word (30_encoding.md R56). -/
theorem hits_unique {r r' : OpRow} {w : Word} (hr : r ∈ opcodeMap) (hr' : r' ∈ opcodeMap) (h : r.hits w = true)
    (h' : r'.hits w = true) : r = r' :=
  List.inj_on_of_nodup_map opcodeMap_opcodes_nodup hr hr'
    (((hits_iff hr w).mp h).1.symm.trans ((hits_iff hr' w).mp h').1)

/-! ### Decoding (30_encoding.md R56) -/

theorem decode_of_hit {r : OpRow} {w : Word} (hr : r ∈ opcodeMap) (hit : r.hits w = true) :
    decode w = .command (r.build w) := by
  unfold decode
  cases hfind : opcodeMap.find? (·.hits w) with
  | none => exact absurd hit (List.find?_eq_none.mp hfind r hr)
  | some r' =>
    have hit' : r'.hits w = true := List.find?_some (p := fun r : OpRow => r.hits w) hfind
    rw [hits_unique hr (List.mem_of_find?_eq_some hfind) hit hit']

/-- A word decodes to a command exactly when it has the fixed bits of a row that builds the command from it. -/
theorem decode_eq_command_iff {w : Word} {i : Instr} :
    decode w = .command i ↔ ∃ r ∈ opcodeMap, r.hits w = true ∧ r.build w = i := by
  constructor
  · unfold decode
    cases hfind : opcodeMap.find? (·.hits w) with
    | none => nofun
    | some r =>
      exact fun h => ⟨r, List.mem_of_find?_eq_some hfind, List.find?_some (p := fun r : OpRow => r.hits w) hfind,
        Decoded.command.inj h⟩
  · rintro ⟨r, hr, hit, rfl⟩
    exact decode_of_hit hr hit

theorem decode_illegal_iff_no_hit {w : Word} :
    (∃ why, decode w = .illegal why) ↔ ∀ r ∈ opcodeMap, r.hits w = false := by
  have hcommand : (∀ r ∈ opcodeMap, r.hits w = false) ↔ ¬ ∃ i, decode w = .command i := by
    simp [decode_eq_command_iff]
  rw [hcommand]
  cases decode w <;> simp

/-- Settles O2: a hit row is the row `decode` finds, as no other hits, and it finds none where none hits. -/
theorem decodeFollowsTheOpcodeMap : Obligations.DecodeFollowsTheOpcodeMap := by
  intro w
  refine ⟨fun r hr hit => ?_, fun hnone => ?_⟩
  · exact decode_of_hit hr (beq_iff_eq.mpr hit)
  · exact decode_illegal_iff_no_hit.mpr fun r hr => beq_eq_false_iff_ne.mpr (hnone r hr)

/-! ### The "must be 0" bits of ARG (30_encoding.md R54) -/

/-- The bits of a mask that is a run of ones are 0 in a value exactly when that field of the value is 0. -/
theorem and_eq_zero_iff_extract {n : Nat} (x m : BitVec n) (start len : Nat)
    (hm : ∀ k < n, m.getLsbD k = decide (start ≤ k ∧ k < start + len)) :
    x &&& m = 0 ↔ x.extractLsb' start len = 0 := by
  simp only [BitVec.eq_of_getLsbD_eq_iff, BitVec.getLsbD_and, BitVec.getLsbD_extractLsb']
  constructor
  · intro h k hk
    by_cases hn : start + k < n
    · have := h (start + k) hn
      simpa [hm _ hn, hk] using this
    · simp [BitVec.getLsbD_of_ge x (start + k) (by omega)]
  · intro h k hk
    by_cases hin : start ≤ k ∧ k < start + len
    · have := h (k - start) (by omega)
      simpa [hm k hk, hin, show k - start < len by omega] using this
    · simp [hm k hk, hin]

/-- An opcode of the map with its "must be 0" argument bits (30_encoding.md R54, R55). -/
theorem argMustBeZero_cases : ∀ op : Byte, opAssigned op = true →
    (op.toNat ≤ 0x07 ∧ argMustBeZero op = 0xFFFF) ∨
    (0x10 ≤ op.toNat ∧ op.toNat ≤ 0x12 ∧ argMustBeZero op = 0) ∨
    ((op.toNat = 0x13 ∨ op.toNat = 0x14) ∧ argMustBeZero op = 0xFF00) ∨
    (op.toNat = 0x20 ∧ argMustBeZero op = 0xFFE0) ∨
    (op.toNat = 0x21 ∧ argMustBeZero op = 0x8000) ∨
    (op.toNat = 0x22 ∧ argMustBeZero op = 0xFF88) := by
  decide

section ArgMasks
variable (x : BitVec 16)

theorem and_all_eq_zero_iff : x &&& 0xFFFF = 0 ↔ x = 0 := by
  rw [and_eq_zero_iff_extract x 0xFFFF 0 16 (by decide), BitVec.extractLsb'_eq_self]

theorem and_operandB_eq_zero_iff : x &&& 0xFF00 = 0 ↔ x.extractLsb' 8 8 = 0 :=
  and_eq_zero_iff_extract x 0xFF00 8 8 (by decide)

theorem and_abovePayload_eq_zero_iff : x &&& 0xFFE0 = 0 ↔ x.extractLsb' 5 11 = 0 :=
  and_eq_zero_iff_extract x 0xFFE0 5 11 (by decide)

theorem and_aboveObs_eq_zero_iff : x &&& 0x8000 = 0 ↔ x.extractLsb' 15 1 = 0 :=
  and_eq_zero_iff_extract x 0x8000 15 1 (by decide)

theorem and_besideVersionEcc_eq_zero_iff :
    x &&& 0xFF88 = 0 ↔ x.extractLsb' 3 1 = 0 ∧ x.extractLsb' 7 9 = 0 := by
  have hmask : (0xFF88 : BitVec 16) = 0x0008 ||| 0xFF80 := rfl
  rw [hmask, BitVec.and_or_distrib_left]
  exact BitVec.or_eq_zero_iff.trans
    (and_congr (and_eq_zero_iff_extract x 0x0008 3 1 (by decide)) (and_eq_zero_iff_extract x 0xFF80 7 9 (by decide)))

end ArgMasks

/-! ### Decoding inverts encoding (30_encoding.md R53 to R56) -/

theorem fieldA_eq (w : Word) : fieldA w = (argField w).extractLsb' 0 8 := (argField_extract w 0 8 (by decide)).symm

theorem fieldB_eq (w : Word) : fieldB w = (argField w).extractLsb' 8 8 := (argField_extract w 8 8 (by decide)).symm

theorem payload_eq (w : Word) : w.extractLsb' 16 5 = (argField w).extractLsb' 0 5 :=
  (argField_extract w 0 5 (by decide)).symm

theorem obs_eq (w : Word) : w.extractLsb' 16 15 = (argField w).extractLsb' 0 15 :=
  (argField_extract w 0 15 (by decide)).symm

theorem version_eq (w : Word) : w.extractLsb' 16 3 = (argField w).extractLsb' 0 3 :=
  (argField_extract w 0 3 (by decide)).symm

theorem ecc_eq (w : Word) : w.extractLsb' 20 3 = (argField w).extractLsb' 4 3 :=
  (argField_extract w 4 3 (by decide)).symm

/-- A value whose high part is 0 is its low part, zero-extended. -/
theorem zero_append_extract {n m : Nat} (x : BitVec (n + m)) (h : x.extractLsb' m n = 0) :
    0#n ++ x.extractLsb' 0 m = x := by
  have h : x.extractLsb' m n = 0#n := h
  rw [← h, BitVec.extractLsb'_append_extractLsb']

theorem arg_operands (w : Word) : argField w = fieldB w ++ fieldA w := by
  rw [fieldA_eq, fieldB_eq]
  exact (BitVec.extractLsb'_append_extractLsb' (w := 8) (len := 8)).symm

section ArgLayouts
variable {w : Word}

theorem arg_operandA (h : argField w &&& 0xFF00 = 0) : argField w = 0#8 ++ fieldA w := by
  rw [fieldA_eq]
  exact (zero_append_extract (n := 8) (m := 8) _ ((and_operandB_eq_zero_iff _).mp h)).symm

theorem arg_payload (h : argField w &&& 0xFFE0 = 0) : argField w = 0#11 ++ w.extractLsb' 16 5 := by
  rw [payload_eq]
  exact (zero_append_extract (n := 11) (m := 5) _ ((and_abovePayload_eq_zero_iff _).mp h)).symm

theorem arg_obs (h : argField w &&& 0x8000 = 0) : argField w = 0#1 ++ w.extractLsb' 16 15 := by
  rw [obs_eq]
  exact (zero_append_extract (n := 1) (m := 15) _ ((and_aboveObs_eq_zero_iff _).mp h)).symm

theorem arg_versionEcc (h : argField w &&& 0xFF88 = 0) :
    argField w = 0#9 ++ (w.extractLsb' 20 3 ++ (0#1 ++ w.extractLsb' 16 3)) := by
  obtain ⟨hbit3, hhigh⟩ := (and_besideVersionEcc_eq_zero_iff _).mp h
  have hversion : 0#1 ++ (argField w).extractLsb' 0 3 = (argField w).extractLsb' 0 (1 + 3) := by
    have hbit3 : (argField w).extractLsb' 3 1 = 0#1 := hbit3
    rw [← hbit3]
    exact BitVec.extractLsb'_append_extractLsb'_eq_extractLsb' rfl
  have hecc : (argField w).extractLsb' 4 3 ++ (argField w).extractLsb' 0 (1 + 3) =
      (argField w).extractLsb' 0 (3 + (1 + 3)) :=
    BitVec.extractLsb'_append_extractLsb'_eq_extractLsb' rfl
  rw [version_eq, ecc_eq, hversion, hecc]
  exact (zero_append_extract (n := 9) (m := 7) _ hhigh).symm

end ArgLayouts

section Build
variable {r : OpRow} {w : Word}

theorem build_opcode (hr : r ∈ opcodeMap) : (r.build w).opcode = opField r.pat := by
  fin_cases hr <;> rfl

theorem build_fBit (hr : r ∈ opcodeMap) (h : fField w &&& fMustBeZero (opField r.pat) = 0) :
    fField w = (r.build w).fBit := by
  have hzero : fField w &&& 1 = 0 → fField w = 0 := fun h => (BitVec.and_allOnes (x := fField w)).symm.trans h
  have hselect : fField w = (fieldSelect w).bit := (bit_fieldSelect w).symm
  fin_cases hr
  exacts [hzero h, hzero h, hzero h, hzero h, hzero h, hzero h, hzero h, hzero h,
    hselect, hselect, hselect, hselect, hselect, hzero h, hzero h, hzero h]

theorem build_arg (hr : r ∈ opcodeMap) (h : argField w &&& argMustBeZero (opField r.pat) = 0) :
    argField w = (r.build w).arg := by
  have hzero : argField w &&& 0xFFFF = 0 → argField w = 0 := (and_all_eq_zero_iff _).mp
  fin_cases hr
  exacts [hzero h, hzero h, hzero h, hzero h, hzero h, hzero h, hzero h, hzero h,
    arg_operands w, arg_operands w, arg_operands w, arg_operandA h, arg_operandA h,
    arg_payload h, arg_obs h, arg_versionEcc h]

/-- A word with a row's fixed bits is the word of the command the row builds: none of its bits is ignored. -/
theorem eq_encode_build (hr : r ∈ opcodeMap) (hit : r.hits w = true) : w = encode (r.build w) := by
  obtain ⟨hop, hres, hf, harg⟩ := (hits_iff hr w).mp hit
  rw [hop] at hf harg
  exact eq_encode_iff.mpr ⟨hop.trans (build_opcode hr).symm, build_fBit hr hf, hres, build_arg hr harg⟩

end Build

/-- The row at `k` decodes a command's word to the command, if the word has its fixed bits and it builds the command. -/
theorem decode_encode_of_row {i : Instr} (k : Nat) (hk : k < opcodeMap.length)
    (hit : encode i &&& opcodeMap[k].mask = opcodeMap[k].pat) (hbuild : opcodeMap[k].build (encode i) = i) :
    decode (encode i) = .command i := by
  rw [decode_of_hit (List.getElem_mem hk) (beq_iff_eq.mpr hit), hbuild]

theorem append_extract_right {n m : Nat} (x : BitVec n) (y : BitVec m) : (x ++ y).extractLsb' 0 m = y :=
  (append_extract_low x y (by omega)).trans BitVec.extractLsb'_eq_self

theorem append_extract_left {n m : Nat} (x : BitVec n) (y : BitVec m) : (x ++ y).extractLsb' m n = x := by
  refine (append_extract_high x y (Nat.le_refl m)).trans ?_
  rw [Nat.sub_self, BitVec.extractLsb'_eq_self]

theorem argField_encode (i : Instr) : argField (encode i) = i.arg := argField_commandWord _ _ _

theorem fieldSelect_encode {i : Instr} {f : GField} (h : i.fBit = f.bit) : fieldSelect (encode i) = f :=
  bit_inj (by rw [bit_fieldSelect, encode, fField_commandWord, h])

/-- The operands of a GF command, as its row takes them from its word. -/
theorem operands_encode (mk : GField → Byte → Byte → Instr) {i : Instr} {f : GField} {a b : Byte}
    (hf : i.fBit = f.bit) (harg : i.arg = b ++ a) :
    mk (fieldSelect (encode i)) (fieldA (encode i)) (fieldB (encode i)) = mk f a b := by
  have ha : fieldA (encode i) = a := by
    rw [fieldA_eq, argField_encode, harg]
    exact append_extract_right b a
  have hb : fieldB (encode i) = b := by
    rw [fieldB_eq, argField_encode, harg]
    exact append_extract_left b a
  rw [fieldSelect_encode hf, ha, hb]

theorem payload_encode (p : BitVec 5) : (encode (.fmtEnc p)).extractLsb' 16 5 = p := by
  rw [payload_eq, argField_encode]
  exact append_extract_right _ p

theorem obs_encode (obs : BitVec 15) : (encode (.fmtDec obs)).extractLsb' 16 15 = obs := by
  rw [obs_eq, argField_encode]
  exact append_extract_right _ obs

theorem version_encode (version ecc : BitVec 3) : (encode (.symLookup version ecc)).extractLsb' 16 3 = version := by
  rw [version_eq, argField_encode]
  simp [Instr.arg, HAppend.hAppend, append_extract_low, -BitVec.append_eq]

theorem ecc_encode (version ecc : BitVec 3) : (encode (.symLookup version ecc)).extractLsb' 20 3 = ecc := by
  rw [ecc_eq, argField_encode]
  simp [Instr.arg, HAppend.hAppend, append_extract_low, append_extract_high, -BitVec.append_eq]

/-- The word of every command decodes to it, through the command's row of the map. -/
theorem decode_encode (i : Instr) : decode (encode i) = .command i := by
  cases i with
  | nop => exact decode_encode_of_row 0 (by decide) EncodesItsRow.nop rfl
  | rsGen => exact decode_encode_of_row 1 (by decide) EncodesItsRow.rsGen rfl
  | rsEnc => exact decode_encode_of_row 2 (by decide) EncodesItsRow.rsEnc rfl
  | rsSyn => exact decode_encode_of_row 3 (by decide) EncodesItsRow.rsSyn rfl
  | rsBm => exact decode_encode_of_row 4 (by decide) EncodesItsRow.rsBm rfl
  | rsOmega => exact decode_encode_of_row 5 (by decide) EncodesItsRow.rsOmega rfl
  | rsChien => exact decode_encode_of_row 6 (by decide) EncodesItsRow.rsChien rfl
  | rsDec => exact decode_encode_of_row 7 (by decide) EncodesItsRow.rsDec rfl
  | gfAdd f a b => exact decode_encode_of_row 8 (by decide) (EncodesItsRow.gfAdd f a b) (operands_encode .gfAdd rfl rfl)
  | gfMul f a b => exact decode_encode_of_row 9 (by decide) (EncodesItsRow.gfMul f a b) (operands_encode .gfMul rfl rfl)
  | gfDiv f a b => exact decode_encode_of_row 10 (by decide) (EncodesItsRow.gfDiv f a b) (operands_encode .gfDiv rfl rfl)
  | gfExp f a =>
    exact decode_encode_of_row 11 (by decide) (EncodesItsRow.gfExp f a)
      (operands_encode (fun f a _ => .gfExp f a) rfl rfl)
  | gfLog f a =>
    exact decode_encode_of_row 12 (by decide) (EncodesItsRow.gfLog f a)
      (operands_encode (fun f a _ => .gfLog f a) rfl rfl)
  | fmtEnc p => exact decode_encode_of_row 13 (by decide) (EncodesItsRow.fmtEnc p) (congrArg _ (payload_encode p))
  | fmtDec obs => exact decode_encode_of_row 14 (by decide) (EncodesItsRow.fmtDec obs) (congrArg _ (obs_encode obs))
  | symLookup version ecc =>
    exact decode_encode_of_row 15 (by decide) (EncodesItsRow.symLookup version ecc)
      (congrArg₂ _ (version_encode version ecc) (ecc_encode version ecc))

/-- Settles O1: each command's word hits the command's row, and a word that hits a row is that of the command built. -/
theorem decodeInvertsEncode : Obligations.DecodeInvertsEncode := by
  refine ⟨decode_encode, fun w i h => ?_⟩
  obtain ⟨r, hr, hit, rfl⟩ := decode_eq_command_iff.mp h
  exact eq_encode_build hr hit

end Sys2Proof.Proofs
end

section
/-! SUPPORT and proofs. The grounds on which a word is illegal and what becomes of such a word, the assembler's words,
and the worked encodings (30_encoding.md R57 to R61). -/

namespace Sys2Proof.Proofs

open Sys2Proof.Machine Sys2Proof.Claims

/-! ### Illegal words (30_encoding.md R57) -/

theorem decode_illegal_iff {w : Word} :
    (∃ why, decode w = .illegal why) ↔ ¬ (opAssigned (opField w) = true ∧ FixedBitsZero w) := by
  have hhit : (∃ r ∈ opcodeMap, r.hits w = true) ↔ opAssigned (opField w) = true ∧ FixedBitsZero w := by
    rw [opAssigned_iff]
    constructor
    · rintro ⟨r, hr, hit⟩
      obtain ⟨hop, hzero⟩ := (hits_iff hr w).mp hit
      exact ⟨⟨r, hr, hop.symm⟩, hzero⟩
    · rintro ⟨⟨r, hr, hop⟩, hzero⟩
      exact ⟨r, hr, (hits_iff hr w).mpr ⟨hop.symm, hzero⟩⟩
  rw [decode_illegal_iff_no_hit, ← hhit]
  simp

theorem opAssigned_iff_toNat (op : Byte) : opAssigned op = true ↔
    op.toNat ≤ 0x07 ∨ (0x10 ≤ op.toNat ∧ op.toNat ≤ 0x14) ∨ (0x20 ≤ op.toNat ∧ op.toNat ≤ 0x22) := by
  simp [opAssigned, BitVec.le_def, or_assoc]

theorem opIsGf_iff_toNat (op : Byte) : opIsGf op = true ↔ 0x10 ≤ op.toNat ∧ op.toNat ≤ 0x14 := by
  simp [opIsGf, BitVec.le_def]

/-- The third ground of R57 is that a "must be 0" F bit is 1. -/
theorem fField_zero_iff (w : Word) : fField w &&& fMustBeZero (opField w) = 0 ↔
    ¬ (w.getLsbD 8 = true ∧ ¬ (0x10 ≤ (opField w).toNat ∧ (opField w).toNat ≤ 0x14)) := by
  rw [← opIsGf_iff_toNat, fField_eq_ofBool, fMustBeZero]
  cases w.getLsbD 8 <;> cases opIsGf (opField w) <;> decide

/-- A "must be 0" ARG bit of the word's opcode is 1, each command's bits written out (30_encoding.md R54). -/
def ArgumentBitSet (w : Word) : Prop :=
  let op := (opField w).toNat
  (op ≤ 0x07 ∧ w.extractLsb' 16 16 ≠ 0) ∨
  ((op = 0x13 ∨ op = 0x14) ∧ w.extractLsb' 24 8 ≠ 0) ∨
  (op = 0x20 ∧ w.extractLsb' 21 11 ≠ 0) ∨
  (op = 0x21 ∧ w.getLsbD 31 = true) ∨
  (op = 0x22 ∧ (w.getLsbD 19 = true ∨ w.extractLsb' 23 9 ≠ 0))

/-- The fourth ground of R57 is that a bit of `argMustBeZero` is 1. -/
theorem argField_zero_iff {w : Word} (h : opAssigned (opField w) = true) :
    argField w &&& argMustBeZero (opField w) = 0 ↔ ¬ ArgumentBitSet w := by
  unfold ArgumentBitSet
  rcases argMustBeZero_cases _ h with ⟨hop, hm⟩ | ⟨hlo, hhi, hm⟩ | ⟨hop, hm⟩ | ⟨hop, hm⟩ | ⟨hop, hm⟩ | ⟨hop, hm⟩ <;>
    rw [hm]
  · rw [and_all_eq_zero_iff, argField]
    grind
  · refine iff_of_true BitVec.and_zero ?_
    grind
  · rw [and_operandB_eq_zero_iff, argField_extract w 8 8 (by decide)]
    grind
  · rw [and_abovePayload_eq_zero_iff, argField_extract w 5 11 (by decide)]
    grind
  · rw [and_aboveObs_eq_zero_iff, argField_extract w 15 1 (by decide), extract_bit_eq_zero_iff]
    grind
  · rw [and_besideVersionEcc_eq_zero_iff, argField_extract w 3 1 (by decide), argField_extract w 7 9 (by decide),
      extract_bit_eq_zero_iff]
    grind

theorem fixedBitsZero_iff (w : Word) : FixedBitsZero w ↔ reservedField w = 0 ∧
    fField w &&& fMustBeZero (opField w) = 0 ∧ argField w &&& argMustBeZero (opField w) = 0 :=
  ⟨fun ⟨hres, hf, harg⟩ => ⟨hres, hf, harg⟩, fun ⟨hres, hf, harg⟩ => ⟨hres, hf, harg⟩⟩

theorem illegal_iff_grounds (w : Word) : (∃ why, decode w = .illegal why) ↔
    ¬ ((opField w).toNat ≤ 0x07 ∨ (0x10 ≤ (opField w).toNat ∧ (opField w).toNat ≤ 0x14) ∨
      (0x20 ≤ (opField w).toNat ∧ (opField w).toNat ≤ 0x22)) ∨
    reservedField w ≠ 0 ∨
    (w.getLsbD 8 = true ∧ ¬ (0x10 ≤ (opField w).toNat ∧ (opField w).toNat ≤ 0x14)) ∨
    ArgumentBitSet w := by
  rw [decode_illegal_iff, ← opAssigned_iff_toNat]
  by_cases h : opAssigned (opField w) = true
  · rw [fixedBitsZero_iff, fField_zero_iff, argField_zero_iff h, not_and_or, not_and_or, not_and_or, not_not, not_not]
  · simp [h]

/-- A write of CMD while IDLE is acceptance, whatever the word (40_command_execution.md R62). -/
theorem portAccess_cmd_idle {s : State} (w : Word) (hpin : s.resetPin = false) (hidle : s.phase = .idle) :
    portAccess (write32 0x010 w) s = answered false none (accept w s) := by
  have hw : portAccess (write32 0x010 w) s = answered false none (writeCmd w s) := portAccess_write w hpin rfl nofun
  have hfree : s.phase ≠ .busy := by rw [hidle]; nofun
  rw [hw, writeCmd, if_neg hfree]

theorem clockCycle_true_busy {s : State} (hpin : s.resetPin = false) (hbusy : s.phase = .busy) :
    clockCycle true s = runCommand s := by
  simp [clockCycle, hpin, hbusy]

/-- An illegal word runs no command (30_encoding.md R57). -/
theorem runCommand_illegal {s : State} {why : Illegal} (h : decode s.cmdLast = .illegal why) :
    runCommand s = .next (complete .illegalCmd s) := by
  rw [runCommand, h]
  rfl

/-- Settles O3: an illegal word has no opcode of the map or a "must be 0" bit set; it completes with no run. -/
theorem illegalWordsFailWithIllegalCmd : Obligations.IllegalWordsFailWithIllegalCmd := by
  refine ⟨illegal_iff_grounds, fun s w why hpin hidle hill => ?_⟩
  rw [portAccess_cmd_idle w hpin hidle]
  refine ⟨rfl, rfl, ?_⟩
  have hcycle := clockCycle_true_busy (s := answered false none (accept w s)) hpin rfl
  rw [hcycle, runCommand_illegal hill, hidle]
  rfl

/-! ### The assembler (30_encoding.md R58, R59) -/

theorem append_toNat {n m : Nat} (x : BitVec n) (y : BitVec m) : (x ++ y).toNat = x.toNat * 2 ^ m + y.toNat := by
  rw [BitVec.toNat_append, ← Nat.shiftLeft_add_eq_or_of_lt y.isLt, Nat.shiftLeft_eq]

/-- A command word as a number: the sum of its fields at their places. -/
theorem encode_eq_ofNat (i : Instr) :
    encode i = .ofNat 32 (i.opcode.toNat + i.fBit.toNat * 2 ^ 8 + i.arg.toNat * 2 ^ 16) := by
  have htoNat : (encode i).toNat =
      i.arg.toNat * 2 ^ 16 + ((0#7).toNat * 2 ^ 9 + (i.fBit.toNat * 2 ^ 8 + i.opcode.toNat)) := by
    rw [← append_toNat, ← append_toNat, ← append_toNat]
    rfl
  have hsum : i.opcode.toNat + i.fBit.toNat * 2 ^ 8 + i.arg.toNat * 2 ^ 16 = (encode i).toNat := by
    rw [htoNat, BitVec.toNat_ofNat]
    omega
  rw [hsum, BitVec.ofNat_toNat, BitVec.setWidth_eq]

theorem fitsByte_iff (n : Nat) : fitsByte n = true ↔ n < 256 := decide_eq_true_iff

section Lines
variable {line : Asm} {op : Byte} {f : BitVec 1} {a b n : Nat} {fits : Prop} [Decidable fits]

/-- A line's word, from the condition that its operands fit and the value they then give ARG; `n` is OP and F. -/
theorem assemble_eq_ite {arg : Nat} (hop : line.toInstr.opcode = op) (hf : line.toInstr.fBit = f)
    (hn : op.toNat + f.toNat * 2 ^ 8 = n) (hwf : line.wellFormed = true ↔ fits)
    (harg : fits → line.toInstr.arg.toNat = arg) :
    line.assemble = if fits then some (.ofNat 32 (n + arg * 2 ^ 16)) else none := by
  unfold Asm.assemble
  by_cases h : fits
  · rw [if_pos (hwf.mpr h), if_pos h, encode_eq_ofNat, hop, hf, hn, harg h]
  · rw [if_neg (mt hwf.mp h), if_neg h]

/-- The word of a GF line with operands A and B (30_encoding.md R58). -/
theorem assemble_operands (hop : line.toInstr.opcode = op) (hf : line.toInstr.fBit = f)
    (hn : op.toNat + f.toNat * 2 ^ 8 = n) (hwf : line.wellFormed = (fitsByte a && fitsByte b))
    (harg : line.toInstr.arg = BitVec.ofNat 8 b ++ BitVec.ofNat 8 a) :
    line.assemble = if a < 256 ∧ b < 256 then some (.ofNat 32 (n + b * 2 ^ 24 + a * 2 ^ 16)) else none := by
  have hsum : n + b * 2 ^ 24 + a * 2 ^ 16 = n + (b * 2 ^ 8 + a) * 2 ^ 16 := by omega
  rw [hsum]
  refine assemble_eq_ite hop hf hn ?_ fun ⟨ha, hb⟩ => ?_
  · rw [hwf, Bool.and_eq_true, fitsByte_iff, fitsByte_iff]
  · rw [harg, append_toNat, BitVec.toNat_ofNat, BitVec.toNat_ofNat, Nat.mod_eq_of_lt hb, Nat.mod_eq_of_lt ha]

/-- The word of a line whose one operand is the low part of ARG, the rest of ARG 0 (30_encoding.md R58). -/
theorem assemble_operand (pad width : Nat) (hop : line.toInstr.opcode = op) (hf : line.toInstr.fBit = f)
    (hn : op.toNat + f.toNat * 2 ^ 8 = n) (hwf : line.wellFormed = true ↔ fits) (hfits : fits → a < 2 ^ width)
    (harg : line.toInstr.arg.toNat = (0#pad ++ BitVec.ofNat width a).toNat) :
    line.assemble = if fits then some (.ofNat 32 (n + a * 2 ^ 16)) else none := by
  refine assemble_eq_ite hop hf hn hwf fun h => ?_
  rw [harg, append_toNat, BitVec.toNat_ofNat, Nat.zero_mod, Nat.zero_mul, Nat.zero_add, BitVec.toNat_ofNat,
    Nat.mod_eq_of_lt (hfits h)]

end Lines

theorem symLookup_arg_toNat {v e : Nat} (hv : v ≤ 7) (he : e ≤ 7) :
    (Asm.symLookup v e).toInstr.arg.toNat = e * 2 ^ 4 + v := by
  have hfields : (Asm.symLookup v e).toInstr.arg.toNat = (0#9).toNat * 2 ^ 7 +
      ((BitVec.ofNat 3 e).toNat * 2 ^ 4 + ((0#1).toNat * 2 ^ 3 + (BitVec.ofNat 3 v).toNat)) := by
    rw [← append_toNat, ← append_toNat, ← append_toNat]
    rfl
  rw [hfields]
  simp only [BitVec.toNat_ofNat]
  omega

theorem assemble_symLookup (v e : Nat) : (Asm.symLookup v e).assemble =
    if v ≤ 7 ∧ e ≤ 7 then some (.ofNat 32 (0x22 + e * 2 ^ 20 + v * 2 ^ 16)) else none := by
  have hsum : 0x22 + e * 2 ^ 20 + v * 2 ^ 16 = 0x22 + (e * 2 ^ 4 + v) * 2 ^ 16 := by omega
  rw [hsum]
  refine assemble_eq_ite (op := 0x22) (f := 0) rfl rfl rfl ?_ fun ⟨hv, he⟩ => symLookup_arg_toNat hv he
  rw [Asm.wellFormed, Bool.and_eq_true, decide_eq_true_iff, decide_eq_true_iff, Nat.lt_succ_iff, Nat.lt_succ_iff]

theorem assemble_fmtEnc (p : Nat) :
    (Asm.fmtEnc p).assemble = if p ≤ 31 then some (.ofNat 32 (0x20 + p * 2 ^ 16)) else none := by
  refine assemble_operand 11 5 (op := 0x20) (f := 0) rfl rfl rfl ?_ Nat.lt_succ_of_le rfl
  rw [Asm.wellFormed, decide_eq_true_iff, Nat.lt_succ_iff]

theorem assemble_fmtDec (o : Nat) :
    (Asm.fmtDec o).assemble = if o ≤ 0x7FFF then some (.ofNat 32 (0x21 + o * 2 ^ 16)) else none := by
  refine assemble_operand 1 15 (op := 0x21) (f := 0) rfl rfl rfl ?_ Nat.lt_succ_of_le rfl
  rw [Asm.wellFormed, decide_eq_true_iff, Nat.lt_succ_iff]

/-- `fmt.enc SYM, MASK` is `fmt.enc` of the payload SYM and MASK make, where each of them fits (30_encoding.md R59). -/
theorem assemble_fmtEncSym (sym mask : Nat) : (Asm.fmtEncSym sym mask).assemble =
    if sym ≤ 7 ∧ mask ≤ 3 then (Asm.fmtEnc (sym * 4 + mask)).assemble else none := by
  have hwf : (Asm.fmtEncSym sym mask).wellFormed = true ↔ sym ≤ 7 ∧ mask ≤ 3 := by
    rw [Asm.wellFormed, Bool.and_eq_true, decide_eq_true_iff, decide_eq_true_iff, Nat.lt_succ_iff, Nat.lt_succ_iff]
  by_cases h : sym ≤ 7 ∧ mask ≤ 3
  · have hpayload : (Asm.fmtEnc (sym * 4 + mask)).wellFormed = true :=
      decide_eq_true (show sym * 4 + mask < 32 by omega)
    rw [if_pos h, Asm.assemble, if_pos (hwf.mpr h), Asm.assemble, if_pos hpayload]
    rfl
  · rw [if_neg h, Asm.assemble, if_neg (mt hwf.mp h)]

theorem assemble_gfSqr (a : Nat) : (Asm.gfSqr a).assemble = (Asm.gfMul .gf256 a a).assemble := by
  have hwf : (Asm.gfMul .gf256 a a).wellFormed = (Asm.gfSqr a).wellFormed := Bool.and_self _
  rw [Asm.assemble, Asm.assemble, hwf]
  rfl

/-- Settles O5: a line's word is the sum of its fields, and its operands fit exactly within the table's bounds. -/
theorem assemblerNeverTruncates : Obligations.AssemblerNeverTruncates := by
  refine ⟨?_, assemble_fmtEnc, assemble_fmtDec, assemble_symLookup, fun a => ⟨assemble_gfSqr a, rfl⟩,
    assemble_fmtEncSym, rfl, rfl, rfl, rfl, rfl, rfl, rfl, rfl, rfl⟩
  intro f a b fbit
  have hbit : f.bit.toNat * 2 ^ 8 = fbit := by cases f <;> rfl
  have hn (op : Byte) : op.toNat + f.bit.toNat * 2 ^ 8 = op.toNat + fbit := congrArg (op.toNat + ·) hbit
  refine ⟨?_, ?_, ?_, ?_, ?_, rfl⟩
  · exact assemble_operands rfl rfl (hn 0x10) rfl rfl
  · exact assemble_operands rfl rfl (hn 0x11) rfl rfl
  · exact assemble_operands rfl rfl (hn 0x12) rfl rfl
  · exact assemble_operand 8 8 rfl rfl (hn 0x13) (fitsByte_iff a) id rfl
  · exact assemble_operand 8 8 rfl rfl (hn 0x14) (fitsByte_iff a) id rfl

/-! ### The worked encodings (30_encoding.md R61) -/

/-- Settles O4: the lines and the illegal words by evaluation, the legal words as those of their commands. -/
theorem workedEncodings : Obligations.WorkedEncodings := by
  refine ⟨rfl, rfl, rfl, rfl, rfl, rfl, rfl, rfl, rfl, ?_, ?_, ?_, ?_, ?_, ?_, ?_, ?_, ?_, ?_, ?_, ?_⟩
  · exact decode_encode (.gfMul .gf256 0x53 0xCA)
  · exact decode_encode (.gfMul .gf16 7 9)
  · exact decode_encode (.gfExp .gf256 255)
  · exact decode_encode (.gfDiv .gf256 1 0x53)
  · exact decode_encode (.fmtEnc 0)
  · exact decode_encode (.fmtEnc 31)
  · exact decode_encode (.fmtDec 0x4445)
  · exact decode_encode (.symLookup 4 3)
  · exact decode_encode .rsDec
  · exact ⟨.fieldSelect, rfl⟩
  · exact ⟨.argumentBits, rfl⟩
  · exact ⟨.unassignedOpcode, rfl⟩

end Sys2Proof.Proofs
end

section
/-! SUPPORT and proofs. The life of a command: acceptance and the dropped write of CMD, the cycles it runs, its
completion as `exec` of the decoded word within its latency, and the parameter checks (40_command_execution.md R62 to
R67, R72). -/

namespace Sys2Proof.Proofs

open Sys2Proof.Machine Sys2Proof.Safety Sys2Proof.Claims

/-! ### Writes of CMD (40_command_execution.md R62, R63) -/

/-- A write of CMD while BUSY is dropped, whatever the word. -/
theorem portAccess_cmd_busy {s : State} (w : Word) (hpin : s.resetPin = false) (hbusy : s.phase = .busy) :
    portAccess (write32 0x010 w) s = answered false none { s with cmdOvf := true } := by
  have hw : portAccess (write32 0x010 w) s = answered false none (writeCmd w s) := portAccess_write w hpin rfl nofun
  rw [hw, writeCmd, if_pos hbusy]

/-- Settles O7: acceptance is all that a write of CMD while IDLE does. -/
theorem acceptanceWritesOnlyStatusAndCmdLast : Obligations.AcceptanceWritesOnlyStatusAndCmdLast :=
  fun _ w hpin hidle => portAccess_cmd_idle w hpin hidle

/-- Settles O8: the dropped write leaves CMD_OVF. -/
theorem cmdWriteWhileBusyIsDropped : Obligations.CmdWriteWhileBusyIsDropped :=
  fun _ w hpin hbusy => portAccess_cmd_busy w hpin hbusy

/-! ### The cycles of a command (40_command_execution.md R64, R66) -/

theorem step_of_no_agenda {s : State} (h : s.agenda = []) : step s = clockCycle true s := by
  rw [step, h]

/-- A legal word runs its command. -/
theorem runCommand_command {s : State} {i : Instr} (h : decode s.cmdLast = .command i) : runCommand s = exec i s := by
  rw [runCommand, h]

theorem clockCycle_idle {s : State} (fin : Bool) (hpin : s.resetPin = false) (hidle : s.phase = .idle) :
    clockCycle fin s = .next s := by
  simp [clockCycle, hpin, hidle]

/-- A cycle of a BUSY engine completes the command by choice or by CMD_LATENCY, and only counts otherwise. -/
theorem clockCycle_busy {s : State} (fin : Bool) (hpin : s.resetPin = false) (hbusy : s.phase = .busy) :
    clockCycle fin s = if fin = true ∨ Config.cmdLatency (opField s.cmdLast) ≤ s.busyCycles + 1
      then runCommand s else .next { s with busyCycles := s.busyCycles + 1 } := by
  simp [clockCycle, hpin, hbusy, mustFinish]

/-- The step that takes a cycle off the agenda of a BUSY engine. -/
theorem step_cycle_busy {s : State} {fin : Bool} {rest : List Event} (hpin : s.resetPin = false)
    (hbusy : s.phase = .busy) (ha : s.agenda = .cycle fin :: rest) :
    step s = if fin = true ∨ Config.cmdLatency (opField s.cmdLast) ≤ s.busyCycles + 1
      then runCommand { s with agenda := rest }
      else .next { s with agenda := rest, busyCycles := s.busyCycles + 1 } :=
  (step_of_agenda ha).trans (clockCycle_busy (s := { s with agenda := rest }) fin hpin hbusy)

theorem decodeTableWord_eq_some_iff {nbits w : Nat} {i : Instr} :
    decodeTableWord nbits w = some i ↔ decode (.ofNat 32 (w % 2 ^ nbits)) = .command i := by
  unfold decodeTableWord
  cases decode (.ofNat 32 (w % 2 ^ nbits)) <;> simp

/-- The step after `withFetchWord` is a completing cycle, with the events that were pending still to come. -/
theorem step_withFetchWord (s : State) (nbits w : Nat) :
    step (s.withFetchWord nbits w) = runCommand { s.withFetchWord nbits w with agenda := s.agenda } := by
  cases ha : s.agenda with
  | nil =>
    have hnil : (s.withFetchWord nbits w).agenda = [] := congrArg agendaForNext ha
    have hkept : { s.withFetchWord nbits w with agenda := [] } = s.withFetchWord nbits w := by rw [← hnil]
    rw [step_of_no_agenda hnil, hkept]
    exact clockCycle_true_busy rfl rfl
  | cons e rest =>
    have hcons : (s.withFetchWord nbits w).agenda = .cycle true :: e :: rest := congrArg agendaForNext ha
    exact (step_of_agenda hcons).trans (clockCycle_true_busy rfl rfl)

/-- Settles O6: a completing cycle is `exec` of the decoded word, and any other cycle counts or changes nothing. -/
theorem stepRunsTheDecodedCommand : Obligations.StepRunsTheDecodedCommand := by
  refine ⟨fun s i hbusy hpin hdec => ?_, fun s nbits w i hdec => ?_, fun s rest fin hbusy hpin ha => ?_,
    fun s hidle hpin => ?_⟩
  · have hrun (rest : List Event) (fin : Bool) (ha : s.agenda = .cycle fin :: rest)
        (hfin : fin = true ∨ Config.cmdLatency (opField s.cmdLast) ≤ s.busyCycles + 1) :
        step s = exec i { s with agenda := rest } := by
      rw [step_cycle_busy hpin hbusy ha, if_pos hfin]
      exact runCommand_command hdec
    refine ⟨fun ha => ?_, fun rest ha => hrun rest true ha (.inl rfl),
      fun rest fin ha hlat => hrun rest fin ha (.inr hlat)⟩
    rw [step_of_no_agenda ha, clockCycle_true_busy hpin hbusy, runCommand_command hdec]
  · rw [step_withFetchWord, runCommand_command (decodeTableWord_eq_some_iff.mp hdec)]
  · exact step_cycle_busy hpin hbusy ha
  · exact ⟨fun ha => (step_of_no_agenda ha).trans (clockCycle_idle true hpin hidle),
      fun rest fin ha => (step_of_agenda ha).trans (clockCycle_idle (s := { s with agenda := rest }) fin hpin hidle)⟩

/-- Settles O43: NOP's word is its encoding, its run writes nothing, and its completion from reset leaves DONE. -/
theorem nopOnlyCompletes : Obligations.NopOnlyCompletes := by
  have hword : encode .nop = 0 := by decide
  have hdec : decode 0 = .command .nop := hword ▸ decode_encode .nop
  refine ⟨hdec, fun w h => (decodeInvertsEncode.2 w .nop h).trans hword, fun _ => rfl,
    complete .ok (accept 0 State.reset), ?_, by decide⟩
  rw [clockCycle_true_busy rfl rfl, runCommand_command hdec]
  rfl

/-! ### Completion within CMD_LATENCY (40_command_execution.md R64) -/

theorem writeTarget_resetPin (t : Target) (v : Word) (s : State) : (writeTarget t v s).resetPin = s.resetPin := by
  cases t with
  | ctrl => simp only [writeTarget, writeCtrl]; split <;> rfl
  | cmd => exact writeCmd_resetPin v s
  | buffer b w => exact setBuf_resetPin s b _
  | status | cfg | id | caps | result | rsInfo | unmapped => rfl

/-- The host port does not drive the reset input. -/
theorem portAccess_resetPin (a : Access) (s : State) : (portAccess a s).resetPin = s.resetPin := by
  rcases portAccess_cases a s with ⟨heq, -⟩ | ⟨heq, -⟩ | ⟨heq, -⟩ | ⟨-, -, -, ⟨off, -, heq⟩ | ⟨off, v, -, heq⟩⟩ <;>
    rw [heq, respond_resetPin]
  exact writeTarget_resetPin _ v s

/-- While BUSY only a soft reset touches the count of cycles. -/
theorem writeTarget_busyCycles {s : State} {off : Offset} {v : Word} (hbusy : s.phase = .busy)
    (hsoft : isSoftReset (.write .word off v) = false) :
    (writeTarget (targetOf off) v s).busyCycles = s.busyCycles := by
  have hat := targetOf_standsAt off
  cases ht : targetOf off with
  | ctrl =>
    rw [ht] at hat
    cases (hat : off = 0x008)
    have hsrst : v.getLsbD 1 = false := by simpa [isSoftReset] using hsoft
    simp only [writeTarget, writeCtrl, hsrst]
    rfl
  | cmd => simp only [writeTarget, writeCmd, if_pos hbusy]
  | buffer b w => exact setBuf_busyCycles s b _
  | status | cfg | id | caps | result | rsInfo | unmapped => rfl

/-- Accesses take no cycles (log entry 3). -/
theorem portAccess_busyCycles {s : State} {a : Access} (hbusy : s.phase = .busy) (hsoft : isSoftReset a = false) :
    (portAccess a s).busyCycles = s.busyCycles := by
  rcases portAccess_cases a s with ⟨heq, -⟩ | ⟨heq, -⟩ | ⟨heq, -⟩ | ⟨-, -, -, ⟨off, -, heq⟩ | ⟨off, v, rfl, heq⟩⟩ <;>
    rw [heq, respond_busyCycles]
  exact writeTarget_busyCycles hbusy hsoft

theorem run_succ_of_step {M : Host.Core} {s t : M.State} (h : M.step s = .next t) (k : Nat) :
    M.run (k + 1) s = M.run k t := by
  rw [Host.Core.run, h]

theorem coreRun_succ_of_step {s t : State} (h : step s = .next t) (k : Nat) :
    Sys2Proof.core.run (k + 1) s = Sys2Proof.core.run k t :=
  run_succ_of_step (M := Sys2Proof.core) (s := s) (t := t) h k

/-- `s` runs from `agenda` to the completion of the command in its CMD_LAST, within as many steps as there are events. -/
def CompletesOn (agenda : List Event) (s : State) : Prop :=
  ∃ k t, k ≤ agenda.length ∧ Sys2Proof.core.run k { s with agenda := agenda } = .next t ∧
    t.phase = .idle ∧ t.done = true ∧ t.cmdLast = s.cmdLast

/-- The state after the oldest event is one from which the rest of the events complete the same command. -/
theorem CompletesOn.cons {e : Event} {rest : List Event} {s t : State}
    (hstep : step { s with agenda := e :: rest } = .next { t with agenda := rest }) (hcmd : t.cmdLast = s.cmdLast)
    (h : CompletesOn rest t) : CompletesOn (e :: rest) s := by
  obtain ⟨k, u, hk, hrun, hidle, hdone, hlast⟩ := h
  have hstart := coreRun_succ_of_step hstep k
  exact ⟨k + 1, u, Nat.succ_le_succ hk, hstart.trans hrun, hidle, hdone, hlast.trans hcmd⟩

/-- A completing step is a run to completion. -/
theorem CompletesOn.of_runCommand {e : Event} {rest : List Event} {s : State}
    (hstep : step { s with agenda := e :: rest } = runCommand { s with agenda := rest }) :
    CompletesOn (e :: rest) s := by
  obtain ⟨i, err, w, hrun, -⟩ := runCommand_writes { s with agenda := rest }
  have hstart := coreRun_succ_of_step (hstep.trans hrun) 0
  exact ⟨1, _, Nat.succ_le_succ (Nat.zero_le _), hstart, rfl, rfl, rfl⟩

/-- Settles O10, by induction on the events: an access leaves the command and its count alone, a cycle completes the
command or adds one to the count, and CMD_LATENCY bounds the count. -/
theorem commandCompletesWithinItsLatency : Obligations.CommandCompletesWithinItsLatency := by
  intro s es hbusy hpin hlt hres hlat
  change CompletesOn es s
  induction es generalizing s with
  | nil => exact absurd hlat (Nat.not_le_of_lt hlt)
  | cons e rest ih =>
    obtain ⟨he, hrest⟩ := List.forall_mem_cons.mp hres
    cases e with
    | access a =>
      obtain ⟨hphase, hcmd, -⟩ := stillRuns_portAccess hbusy he
      have hcount := portAccess_busyCycles hbusy he
      have hstep : step { s with agenda := .access a :: rest } = .next { portAccess a s with agenda := rest } :=
        congrArg _ (portAccess_agenda a s rest)
      refine .cons hstep hcmd (ih _ hphase ((portAccess_resetPin a s).trans hpin) ?_ hrest ?_)
      · rwa [hcmd, hcount]
      · rw [hcmd, hcount]
        exact hlat
    | cycle fin =>
      rcases clockCycle_cases fin { s with agenda := rest } with ⟨-, hp⟩ | ⟨-, -, hidle⟩ | ⟨heq, -⟩ |
        ⟨heq, -, -, -, hlt'⟩
      · exact absurd (hp.symm.trans hpin) nofun
      · exact absurd (hidle.symm.trans hbusy) nofun
      · exact .of_runCommand heq
      · have hone : countCycles (.cycle fin :: rest) = countCycles rest + 1 := List.countP_cons_of_pos rfl
        refine .cons (t := { s with busyCycles := s.busyCycles + 1 }) heq rfl (ih _ hbusy hpin hlt' hrest ?_)
        dsimp only
        omega
    | resetInput _ | powerCycle => cases he

/-! ### The parameter checks (40_command_execution.md R67) -/

theorem effectiveNpar_eq_nparEff (c : Cfg) : effectiveNpar c = c.nparEff := rfl

theorem nparOk_iff (c : Cfg) : NparOk c ↔ c.nparOk = true := by
  simp [NparOk, Cfg.nparOk, effectiveNpar_eq_nparEff]

theorem blockOk_iff (c : Cfg) : BlockOk c ↔ c.blockOk = true := by
  rw [BlockOk, nparOk_iff]
  simp only [Cfg.blockOk, Bool.and_eq_true, decide_eq_true_eq]
  exact and_assoc.symm

/-- An RS command whose own check fails ends with BAD_PARAM and writes nothing. -/
theorem effectOf_of_check_fails {i : Instr} {c : Cfg} (buf : Buffer → Poly)
    (h : NeedsNpar i ∧ ¬ NparOk c ∨ NeedsBlock i ∧ ¬ BlockOk c) : effectOf i c buf = (.badParam, {}) := by
  rcases h with ⟨hi, hc⟩ | ⟨hi, hc⟩
  · rw [nparOk_iff] at hc
    rcases hi with rfl | rfl | rfl <;> exact if_neg hc
  · rw [blockOk_iff] at hc
    rcases hi with rfl | rfl | rfl | rfl <;> exact if_neg hc

/-- The code is not BAD_PARAM, and NPAR_USED is written with `n`. -/
def EndsChecked (n : Nat) (r : ErrCode × Effect) : Prop := r.1 ≠ .badParam ∧ r.2.nparUsed = some (.ofNat 6 n)

theorem decEffect_endsChecked (nb n : Nat) (blk : Poly) : EndsChecked n (decEffect nb n blk) := by
  unfold decEffect
  split
  · refine ⟨?_, rfl⟩
    dsimp only
    split <;> nofun
  · exact ⟨nofun, rfl⟩

/-- Behind a check that holds every RS command ends with another code and writes NPAR_USED. -/
theorem effectOf_of_check_holds {i : Instr} {c : Cfg} (buf : Buffer → Poly)
    (h : NeedsNpar i ∧ NparOk c ∨ NeedsBlock i ∧ BlockOk c) : EndsChecked (effectiveNpar c) (effectOf i c buf) := by
  rcases h with ⟨hi, hc⟩ | ⟨hi, hc⟩
  · rw [nparOk_iff] at hc
    rcases hi with rfl | rfl | rfl <;> simp only [effectOf, checked, if_pos hc] <;> exact ⟨nofun, rfl⟩
  · rw [blockOk_iff] at hc
    rcases hi with rfl | rfl | rfl | rfl <;> simp only [effectOf, checked, if_pos hc]
    · exact ⟨nofun, rfl⟩
    · exact ⟨nofun, rfl⟩
    · exact ⟨nofun, rfl⟩
    · exact decEffect_endsChecked _ _ _

/-- Settles O48: the command's writes are those behind its check. -/
theorem rsCommandsCheckTheirParameters : Obligations.RsCommandsCheckTheirParameters := by
  refine fun i s => ⟨fun h => ?_, fun h => ?_⟩
  · rw [exec_eq_effect, effectOf_of_check_fails s.buf h]
    rfl
  · obtain ⟨hcode, hnpar⟩ := effectOf_of_check_holds s.buf h
    exact ⟨_, exec_eq_effect i s, hcode, by simp [Effect.apply, hnpar]⟩

end Sys2Proof.Proofs
end

section
/-! SUPPORT and proofs. The two fields as the statements define them (the reduced carry-less product and the powers of
α), the tables as powers of α and their exponents, and the five GF commands (41_galois_field.md R73 to R86). -/

namespace Sys2Proof.Proofs

open Sys2Proof.Machine Sys2Proof.Claims

/-! ### Xor sums -/

theorem xorSum_succ (n : Nat) (g : Nat → Byte) : xorSum (n + 1) g = xorSum n g ^^^ g n := rfl

theorem xorSum_congr {n : Nat} {g h : Nat → Byte} (heq : ∀ k < n, g k = h k) : xorSum n g = xorSum n h :=
  forUp_congr 0 fun k hk acc => congrArg (acc ^^^ ·) (heq k hk)

theorem xorSum_eq_zero {n : Nat} {g : Nat → Byte} (h : ∀ k < n, g k = 0) : xorSum n g = 0 :=
  forUp_invariant (fun _ acc => acc = 0) rfl fun k hk acc hacc => by rw [hacc, h k hk]; rfl

/-- The first term taken off a sum. -/
theorem xorSum_succ_left (n : Nat) (g : Nat → Byte) : xorSum (n + 1) g = g 0 ^^^ xorSum n (fun k => g (k + 1)) := by
  induction n with
  | zero => exact BitVec.xor_comm 0 (g 0)
  | succ n ih => rw [xorSum_succ, ih, BitVec.xor_assoc, ← xorSum_succ]

/-- A map that commutes with xor commutes with a sum. -/
theorem map_xorSum {φ : Byte → Byte} (hxor : ∀ a b, φ (a ^^^ b) = φ a ^^^ φ b) (n : Nat) (g : Nat → Byte) :
    φ (xorSum n g) = xorSum n (fun k => φ (g k)) := by
  induction n with
  | zero =>
    have h : φ 0 = φ 0 ^^^ φ 0 := hxor 0 0
    rwa [BitVec.xor_self] at h
  | succ n ih => rw [xorSum_succ, hxor, ih, ← xorSum_succ]

theorem xorSum_xor (n : Nat) (g h : Nat → Byte) : xorSum n (fun k => g k ^^^ h k) = xorSum n g ^^^ xorSum n h := by
  induction n with
  | zero => exact BitVec.xor_zero.symm
  | succ n ih =>
    rw [xorSum_succ, ih, xorSum_succ, xorSum_succ]
    ac_rfl

/-! ### Multiplication by powers of x -/

@[simp] theorem isElement_gf256 (a : Byte) : isElement .gf256 a = true := rfl

theorem isElement_gf16_iff (a : Byte) : isElement .gf16 a = true ↔ a.toNat < 16 := decide_eq_true_iff

theorem mulX_xor (f : GField) (a b : Byte) : mulX f (a ^^^ b) = mulX f a ^^^ mulX f b := by
  have hstep (c : Bool → Byte) (hc : ∀ p q, c (p ^^ q) = c p ^^^ c q) (k : Nat) :
      ((a ^^^ b) <<< 1) ^^^ c ((a ^^^ b).getLsbD k) =
        ((a <<< 1) ^^^ c (a.getLsbD k)) ^^^ ((b <<< 1) ^^^ c (b.getLsbD k)) := by
    rw [BitVec.shiftLeft_xor_distrib, BitVec.getLsbD_xor, hc]
    ac_rfl
  cases f with
  | gf256 => exact hstep (fun p => if p then 0x1D else 0) (by decide) 7
  | gf16 => exact hstep (fun p => if p then 0x13 else 0) (by decide) 3

@[simp] theorem mulX_zero (f : GField) : mulX f 0#8 = 0#8 := by cases f <;> rfl

theorem isElement_mulX {f : GField} : ∀ {v : Byte}, isElement f v = true → isElement f (mulX f v) = true := by
  cases f <;> decide

theorem mulX_ne_zero {f : GField} : ∀ {v : Byte}, isElement f v = true → v ≠ 0 → mulX f v ≠ 0 := by
  cases f <;> decide

theorem shiftMul_succ (f : GField) (n : Nat) (a : Byte) : shiftMul f (n + 1) a = mulX f (shiftMul f n a) := rfl

theorem shiftMul_xor (f : GField) (n : Nat) (a b : Byte) :
    shiftMul f n (a ^^^ b) = shiftMul f n a ^^^ shiftMul f n b := by
  induction n with
  | zero => rfl
  | succ n ih => rw [shiftMul_succ, ih, mulX_xor, ← shiftMul_succ, ← shiftMul_succ]

theorem isElement_xor {f : GField} {a b : Byte} (ha : isElement f a = true) (hb : isElement f b = true) :
    isElement f (a ^^^ b) = true := by
  cases f with
  | gf256 => rfl
  | gf16 =>
    rw [isElement_gf16_iff] at ha hb ⊢
    rw [BitVec.toNat_xor]
    exact Nat.xor_lt_two_pow (n := 4) ha hb

/-! ### The reduced product -/

theorem ite_xor (p : Bool) (a b : Byte) :
    (if p then a ^^^ b else 0) = (if p then a else 0) ^^^ (if p then b else 0) := by
  cases p <;> simp

theorem bit_xor_ite (p q : Bool) (a : Byte) :
    (if p ^^ q then a else 0) = (if p then a else 0) ^^^ (if q then a else 0) := by
  cases p <;> cases q <;> simp

theorem product_xor_left (f : GField) (a b c : Byte) :
    product f (a ^^^ b) c = product f a c ^^^ product f b c := by
  simp only [product, shiftMul_xor, ite_xor]
  exact xorSum_xor ..

theorem product_xor_right (f : GField) (a b c : Byte) :
    product f a (b ^^^ c) = product f a b ^^^ product f a c := by
  simp only [product, BitVec.getLsbD_xor, bit_xor_ite]
  exact xorSum_xor ..

@[simp] theorem product_zero_right (f : GField) (a : Byte) : product f a 0#8 = 0#8 :=
  xorSum_eq_zero fun _ _ => by simp

@[simp] theorem product_zero_left (f : GField) (b : Byte) : product f 0#8 b = 0#8 := by
  have h := product_xor_left f 0 0 b
  rwa [BitVec.xor_self, BitVec.xor_self] at h

@[simp] theorem product_one_right (f : GField) (a : Byte) : product f a 1#8 = a := by
  rw [product, xorSum_succ_left, xorSum_eq_zero fun k _ => by simp]
  exact BitVec.xor_zero

/-- A shift of the second operand, before the reduction: every term but the last moves up by one. -/
theorem product_shiftLeft (f : GField) (a b : Byte) :
    product f a (b <<< 1) = mulX f (xorSum 7 fun i => if b.getLsbD i then shiftMul f i a else 0) := by
  have hfirst : (if (b <<< 1).getLsbD 0 then shiftMul f 0 a else 0) = 0 := by simp
  rw [map_xorSum (mulX_xor f), product, xorSum_succ_left, hfirst]
  refine BitVec.zero_xor.trans (xorSum_congr fun k hk => ?_)
  have hbit : (b <<< 1).getLsbD (k + 1) = b.getLsbD k := by
    simpa [BitVec.getLsbD_shiftLeft] using fun _ => Nat.succ_lt_succ hk
  rw [hbit]
  cases b.getLsbD k
  · exact (mulX_zero f).symm
  · rfl

/-- The last term of a product taken off. -/
theorem product_last (f : GField) (a b : Byte) : product f a b =
    (xorSum 7 fun i => if b.getLsbD i then shiftMul f i a else 0) ^^^ if b.getLsbD 7 then shiftMul f 7 a else 0 := rfl

/-- R74's modulus: `x^8` is the element 0x1D. -/
theorem product_reduce_gf256 : ∀ a : Byte, product .gf256 a 0x1D = shiftMul .gf256 8 a := by decide

/-- R76's modulus 0x13 is 0 in GF(16). -/
theorem product_modulus_gf16 : ∀ {a : Byte}, isElement .gf16 a = true → product .gf16 a 0x13#8 = 0#8 := by decide

theorem product_mulX_right {f : GField} {a b : Byte} (ha : isElement f a = true) (hb : isElement f b = true) :
    product f a (mulX f b) = mulX f (product f a b) := by
  cases f with
  | gf256 =>
    rw [mulX, product_xor_right, product_shiftLeft, product_last _ a b, mulX_xor]
    cases b.getLsbD 7
    · simp
    · exact congrArg _ (product_reduce_gf256 a)
  | gf16 =>
    have htop : b.getLsbD 7 = false :=
      Nat.testBit_lt_two_pow (((isElement_gf16_iff b).mp hb).trans (by decide))
    rw [mulX, product_xor_right, product_shiftLeft, product_last _ a b, htop]
    cases b.getLsbD 3
    · simp
    · simp [product_modulus_gf16 ha]

/-! ### Powers of α -/

@[simp] theorem alpha_zero (f : GField) : alpha f 0 = 1#8 := rfl

theorem alpha_succ (f : GField) (n : Nat) : alpha f (n + 1) = mulX f (alpha f n) := rfl

@[simp] theorem isElement_alpha (f : GField) (n : Nat) : isElement f (alpha f n) = true := by
  induction n with
  | zero => cases f <;> rfl
  | succ n ih => exact isElement_mulX ih

@[simp] theorem alpha_ne_zero (f : GField) (n : Nat) : alpha f n ≠ 0#8 := by
  induction n with
  | zero => exact (by decide : (1 : Byte) ≠ 0)
  | succ n ih => exact mulX_ne_zero (isElement_alpha f n) ih

theorem product_alpha_right {f : GField} {a : Byte} (ha : isElement f a = true) (n : Nat) :
    product f a (alpha f n) = shiftMul f n a := by
  induction n with
  | zero => exact product_one_right f a
  | succ n ih => rw [alpha_succ, product_mulX_right ha (isElement_alpha f n), ih, shiftMul_succ]

theorem shiftMul_alpha (f : GField) (m n : Nat) : shiftMul f n (alpha f m) = alpha f (m + n) := by
  induction n with
  | zero => rfl
  | succ n ih => rw [shiftMul_succ, ih, ← alpha_succ, Nat.add_assoc]

theorem product_alpha_alpha (f : GField) (m n : Nat) : product f (alpha f m) (alpha f n) = alpha f (m + n) := by
  rw [product_alpha_right (isElement_alpha f m), shiftMul_alpha]

/-! ### The tables (41_galois_field.md R74, R76) -/

theorem fieldOrder_pos (f : GField) : 0 < fieldOrder f := by cases f <;> decide

theorem fieldOrder_lt (f : GField) : fieldOrder f < 256 := by cases f <;> decide

/-- The recurrence of the exp tables. -/
theorem fieldExp_succ {f : GField} {i : Nat} (h : i < fieldOrder f) : fieldExp f (i + 1) = mulX f (fieldExp f i) := by
  have hbyte : ∀ v : Byte, v.toNat < fieldOrder f → fieldExp f (v.toNat + 1) = mulX f (fieldExp f v.toNat) := by
    cases f <;> decide
  exact hbyte (.ofNatLT i (h.trans (fieldOrder_lt f))) h

theorem fieldExp_eq_alpha {f : GField} {i : Nat} (h : i ≤ fieldOrder f) : fieldExp f i = alpha f i := by
  induction i with
  | zero => cases f <;> rfl
  | succ i ih => rw [fieldExp_succ h, ih (Nat.le_of_succ_le h), ← alpha_succ]

/-- α has the order of the multiplicative group. -/
theorem alpha_fieldOrder (f : GField) : alpha f (fieldOrder f) = 1 := by
  rw [← fieldExp_eq_alpha le_rfl]
  cases f <;> rfl

theorem alpha_periodic (f : GField) : Function.Periodic (alpha f) (fieldOrder f) := fun n => by
  rw [Nat.add_comm, ← shiftMul_alpha, alpha_fieldOrder]
  rfl

/-- A table read at a reduced exponent is the power of α. -/
theorem fieldExp_mod (f : GField) (n : Nat) : fieldExp f (n % fieldOrder f) = alpha f n := by
  rw [fieldExp_eq_alpha (Nat.mod_lt n (fieldOrder_pos f)).le, (alpha_periodic f).map_mod_nat]

theorem fieldLog_lt {f : GField} : ∀ a : Byte, fieldLog f a < fieldOrder f := by
  cases f <;> decide

theorem fieldExp_fieldLog {f : GField} :
    ∀ {a : Byte}, isElement f a = true → a ≠ 0 → fieldExp f (fieldLog f a) = a := by
  cases f <;> decide

theorem fieldLog_fieldExp {f : GField} {i : Nat} (h : i < fieldOrder f) : fieldLog f (fieldExp f i) = i := by
  have hbyte : ∀ v : Byte, v.toNat < fieldOrder f → fieldLog f (fieldExp f v.toNat) = v.toNat := by
    cases f <;> decide
  exact hbyte (.ofNatLT i (h.trans (fieldOrder_lt f))) h

/-- Settles O35: the entries are the powers of α in turn, and LOG inverts EXP below the group's order. -/
theorem gf256TablesFollowTheirDefinition : Obligations.Gf256TablesFollowTheirDefinition :=
  ⟨rfl, fun _ hi => fieldExp_succ (f := .gf256) (Nat.lt_succ_of_le (hi.trans (by decide))), rfl,
    fun _ hi => fieldLog_fieldExp (f := .gf256) (Nat.lt_succ_of_le hi), rfl,
    fun _ hx => fieldExp_fieldLog (f := .gf256) rfl hx⟩

/-- A nonzero element is the power of α that the log table names. -/
theorem alpha_fieldLog {f : GField} {a : Byte} (ha : isElement f a = true) (h : a ≠ 0) : alpha f (fieldLog f a) = a := by
  rw [← fieldExp_eq_alpha (fieldLog_lt a).le, fieldExp_fieldLog ha h]

/-- Every nonzero element is a power of α. -/
theorem exists_alpha {f : GField} {a : Byte} (ha : isElement f a = true) (h : a ≠ 0) : ∃ n, alpha f n = a :=
  ⟨_, alpha_fieldLog ha h⟩

/-! ### The field laws (41_galois_field.md R77) -/

theorem product_comm {f : GField} {a b : Byte} (ha : isElement f a = true) (hb : isElement f b = true) :
    product f a b = product f b a := by
  rcases eq_or_ne a 0#8 with rfl | ha0
  · simp
  rcases eq_or_ne b 0#8 with rfl | hb0
  · simp
  obtain ⟨m, rfl⟩ := exists_alpha ha ha0
  obtain ⟨n, rfl⟩ := exists_alpha hb hb0
  rw [product_alpha_alpha, product_alpha_alpha, Nat.add_comm]

theorem isElement_product {f : GField} {a b : Byte} (ha : isElement f a = true) (hb : isElement f b = true) :
    isElement f (product f a b) = true := by
  rcases eq_or_ne a 0#8 with rfl | ha0
  · rwa [product_zero_left]
  rcases eq_or_ne b 0#8 with rfl | hb0
  · rwa [product_zero_right]
  obtain ⟨m, rfl⟩ := exists_alpha ha ha0
  obtain ⟨n, rfl⟩ := exists_alpha hb hb0
  rw [product_alpha_alpha, isElement_alpha]

theorem product_assoc {f : GField} {a b c : Byte} (ha : isElement f a = true) (hb : isElement f b = true)
    (hc : isElement f c = true) : product f (product f a b) c = product f a (product f b c) := by
  rcases eq_or_ne a 0#8 with rfl | ha0
  · simp
  rcases eq_or_ne b 0#8 with rfl | hb0
  · simp
  rcases eq_or_ne c 0#8 with rfl | hc0
  · simp
  obtain ⟨l, rfl⟩ := exists_alpha ha ha0
  obtain ⟨m, rfl⟩ := exists_alpha hb hb0
  obtain ⟨n, rfl⟩ := exists_alpha hc hc0
  simp only [product_alpha_alpha, Nat.add_assoc]

/-- The engine's product by tables is the reduced carry-less product. -/
theorem gfMul_eq_product {f : GField} {a b : Byte} (ha : isElement f a = true) (hb : isElement f b = true) :
    gfMul f a b = product f a b := by
  unfold gfMul
  split
  case isTrue h => rcases h with rfl | rfl <;> simp
  case isFalse h =>
    obtain ⟨ha0, hb0⟩ := not_or.mp h
    rw [fieldExp_mod, ← product_alpha_alpha, alpha_fieldLog ha ha0, alpha_fieldLog hb hb0]

@[simp] theorem gfDiv_zero (f : GField) (b : Byte) : gfDiv f 0#8 b = 0#8 := if_pos rfl

/-- The quotient of a nonzero element by tables, as a power of α. -/
theorem gfDiv_eq_alpha (f : GField) {a : Byte} (b : Byte) (ha0 : a ≠ 0) :
    gfDiv f a b = alpha f (fieldLog f a + fieldOrder f - fieldLog f b) := by
  rw [gfDiv, if_neg ha0, fieldExp_mod]

theorem isElement_gfDiv {f : GField} (a b : Byte) : isElement f (gfDiv f a b) = true := by
  rcases eq_or_ne a 0#8 with rfl | ha0
  · rw [gfDiv_zero]
    cases f <;> rfl
  · rw [gfDiv_eq_alpha f b ha0, isElement_alpha]

/-- The engine's quotient by tables times the divisor is the dividend. -/
theorem product_gfDiv {f : GField} {a b : Byte} (ha : isElement f a = true) (hb : isElement f b = true) (hb0 : b ≠ 0) :
    product f (gfDiv f a b) b = a := by
  rcases eq_or_ne a 0#8 with rfl | ha0
  · rw [gfDiv_zero, product_zero_left]
  · have hlog : fieldLog f a + fieldOrder f - fieldLog f b + fieldLog f b = fieldLog f a + fieldOrder f :=
      Nat.sub_add_cancel ((fieldLog_lt b).le.trans (Nat.le_add_left ..))
    calc product f (gfDiv f a b) b
        = product f (alpha f (fieldLog f a + fieldOrder f - fieldLog f b)) (alpha f (fieldLog f b)) := by
          rw [gfDiv_eq_alpha f b ha0, alpha_fieldLog hb hb0]
      _ = alpha f (fieldLog f a) := by rw [product_alpha_alpha, hlog, alpha_periodic f]
      _ = a := alpha_fieldLog ha ha0

/-- Settles O36: `gf_mul` is the reduced product, whose laws are those of the exponents of α and, for the distributive
law, of xor. -/
theorem gfMulObeysTheFieldLaws : Obligations.GfMulObeysTheFieldLaws := by
  intro f a b c ha hb hc
  have hone : isElement f 1 = true := isElement_alpha f 0
  have hbc : isElement f (b ^^^ c) = true := isElement_xor hb hc
  have hab := isElement_product ha hb
  refine ⟨gfMul_eq_product ha hb, ?_, ?_, ?_, ?_, ?_, fun hb0 => ?_⟩
  · rw [gfMul_eq_product ha hb, gfMul_eq_product hb ha, product_comm ha hb]
  · rw [gfMul_eq_product ha hb, gfMul_eq_product hab hc, gfMul_eq_product hb hc,
      gfMul_eq_product ha (isElement_product hb hc), product_assoc ha hb hc]
  · rw [gfMul_eq_product ha hbc, gfMul_eq_product ha hb, gfMul_eq_product ha hc, product_xor_right]
  · rw [gfMul_eq_product hone ha, product_comm hone ha]
    exact product_one_right f a
  · rw [gfMul_eq_product ha hb, hab]
  · rw [gfMul_eq_product (isElement_gfDiv a b) hb, product_gfDiv ha hb hb0]

/-! ### The quotient without the zero guard (41_galois_field.md R78) -/

theorem lutDiv_eq_alpha (a b : Byte) : lutDiv a b = alpha .gf256 (255 - log256 b + log256 a) :=
  fieldExp_mod .gf256 _

theorem lutDiv_ne_zero (a b : Byte) : lutDiv a b ≠ 0#8 := by
  rw [lutDiv_eq_alpha]
  exact alpha_ne_zero _ _

theorem lutDiv_eq_gfDiv {a : Byte} (b : Byte) (ha0 : a ≠ 0#8) : lutDiv a b = gfDiv .gf256 a b := by
  have hlog : log256 b < 255 := fieldLog_lt (f := .gf256) b
  have hexp : 255 - log256 b + log256 a = log256 a + 255 - log256 b := by omega
  rw [lutDiv_eq_alpha, hexp, gfDiv_eq_alpha .gf256 b ha0]
  rfl

/-- The sentinel LOG[0] = LOG[1]: a zero operand divides as 1 does. -/
theorem lutDiv_zero_left (b : Byte) : lutDiv 0#8 b = lutDiv 1#8 b := rfl

theorem lutDiv_zero_right (a : Byte) : lutDiv a 0#8 = lutDiv a 1#8 := rfl

theorem product_lutDiv {a b : Byte} (ha0 : a ≠ 0#8) (hb0 : b ≠ 0#8) : product .gf256 (lutDiv a b) b = a := by
  rw [lutDiv_eq_gfDiv b ha0, product_gfDiv rfl rfl hb0]

theorem lutDiv_one_right {a : Byte} (ha0 : a ≠ 0#8) : lutDiv a 1#8 = a := by
  rw [← product_one_right .gf256 (lutDiv a 1#8), product_lutDiv ha0 (by decide)]

theorem isTableQuotient_lutDiv (a b : Byte) : IsTableQuotient (lutDiv a b) a b := by
  unfold IsTableQuotient
  split_ifs with hb ha ha
  · subst hb ha
    rfl
  · subst hb
    exact (lutDiv_zero_right a).trans (lutDiv_one_right ha)
  · subst ha
    exact (congrArg (product .gf256 · b) (lutDiv_zero_left b)).trans (product_lutDiv (by decide) hb)
  · exact product_lutDiv ha hb

/-- Settles O37: behind the sentinel `lutdiv` is the division by tables. -/
theorem lutDivReadsTheSentinel : Obligations.LutDivReadsTheSentinel := fun a b =>
  ⟨fun ha _ => lutDiv_eq_gfDiv b ha, fun _ => (lutDiv_zero_left b).trans (lutDiv_eq_gfDiv b (by decide)),
    fun ha => (lutDiv_zero_right a).trans (lutDiv_one_right ha), rfl, isTableQuotient_lutDiv a b⟩

/-! ### The GF commands (41_galois_field.md R81 to R86) -/

/-- The operand check as the statements write it. -/
theorem isElement_iff (f : GField) (a : Byte) : isElement f a = true ↔ ¬ (f = .gf16 ∧ 16 ≤ a.toNat) := by
  cases f with
  | gf256 => simp
  | gf16 => simp [isElement_gf16_iff]

theorem elements_iff (f : GField) (a b : Byte) :
    (isElement f a && isElement f b) = true ↔ ¬ (f = .gf16 ∧ (16 ≤ a.toNat ∨ 16 ≤ b.toNat)) := by
  rw [Bool.and_eq_true, isElement_iff, isElement_iff, ← not_or, and_or_left]

/-- The operand check of a command of two operands, as the statements write it. -/
theorem ite_elements {α : Type} (f : GField) (a b : Byte) (x y : α) :
    (if isElement f a && isElement f b then x else y) =
      if f = .gf16 ∧ (16 ≤ a.toNat ∨ 16 ≤ b.toNat) then y else x := by
  rw [if_congr (elements_iff f a b) rfl rfl, ite_not]

/-- The operand check of a command of one operand, as the statements write it. -/
theorem ite_element {α : Type} (f : GField) (a : Byte) (x y : α) :
    (if isElement f a then x else y) = if f = .gf16 ∧ 16 ≤ a.toNat then y else x := by
  rw [if_congr (isElement_iff f a) rfl rfl, ite_not]

/-- Settles O38: behind the operand check the result is the xor. -/
theorem gfAddGivesTheXor : Obligations.GfAddGivesTheXor := by
  intro f a b s
  rw [exec_eq_effect, effectOf, ite_elements]
  split_ifs <;> rfl

/-- Settles O39: on elements the product by tables is the reduced product. -/
theorem gfMulGivesTheFieldProduct : Obligations.GfMulGivesTheFieldProduct := by
  intro f a b s
  rw [exec_eq_effect, effectOf, ite_elements]
  split_ifs with hbad
  · rfl
  · obtain ⟨ha, hb⟩ := Bool.and_eq_true_iff.mp ((elements_iff f a b).mpr hbad)
    rw [gfMul_eq_product ha hb]
    rfl

/-- Settles O40: the quotient by tables is the element whose product with the divisor is the dividend. -/
theorem gfDivGivesTheFieldQuotient : Obligations.GfDivGivesTheFieldQuotient := by
  intro f a b s
  rw [exec_eq_effect, effectOf, ite_elements]
  refine ⟨fun hbad => ?_, fun hok => ?_⟩
  · rw [if_pos hbad]
    rfl
  · obtain ⟨ha, hb⟩ := Bool.and_eq_true_iff.mp ((elements_iff f a b).mpr hok)
    rw [if_neg hok]
    refine ⟨fun hb0 => ?_, fun hb0 => ⟨gfDiv f a b, product_gfDiv ha hb hb0, isElement_gfDiv a b, ?_⟩⟩
    · rw [if_pos hb0]
      rfl
    · rw [if_neg hb0]
      rfl

/-- Settles O41: the exponent is reduced by the order of α. -/
theorem gfExpGivesThePowerOfAlpha : Obligations.GfExpGivesThePowerOfAlpha := by
  intro f a s
  rw [exec_eq_effect, effectOf, gfExp, fieldExp_mod]
  exact ⟨rfl, alpha_ne_zero f a.toNat⟩

theorem setWidth_ofNat_byte {n : Nat} (h : n < 256) : (BitVec.ofNat 8 n).setWidth 32 = BitVec.ofNat 32 n := by
  apply BitVec.eq_of_toNat_eq
  simp [Nat.mod_eq_of_lt h]

/-- Settles O42: the log table names the exponent of a nonzero element. -/
theorem gfLogInvertsTheExponential : Obligations.GfLogInvertsTheExponential := by
  intro f a s
  rw [exec_eq_effect, effectOf, ite_element]
  refine ⟨fun hbad => ?_, fun hok => ?_⟩
  · rw [if_pos hbad]
    rfl
  · have ha := (isElement_iff f a).mpr hok
    rw [if_neg hok]
    refine ⟨fun ha0 => ?_, fun ha0 => ⟨fieldLog f a, fieldLog_lt a, alpha_fieldLog ha ha0, ?_⟩⟩
    · rw [if_pos ha0]
      rfl
    · rw [if_neg ha0, byteEffect, gfLog, setWidth_ofNat_byte ((fieldLog_lt a).trans (fieldOrder_lt f))]
      rfl

end Sys2Proof.Proofs
end

section
/-! SUPPORT and proofs. `poly_eval` by tables as the value of the polynomial (41_galois_field.md R79), and the Chien and
Forney step: which positions it changes, by what, and how many it counts (43_rs_decode.md R96, R100). -/

namespace Sys2Proof.Proofs

open Sys2Proof.Machine Sys2Proof.Claims

/-! ### The value of a polynomial (41_galois_field.md R79) -/

theorem power_succ (x : Byte) (k : Nat) : power x (k + 1) = product .gf256 x (power x k) := rfl

theorem power_alpha (m k : Nat) : power (alpha .gf256 m) k = alpha .gf256 (m * k) := by
  induction k with
  | zero => rfl
  | succ k ih => rw [power_succ, ih, product_alpha_alpha, Nat.mul_succ, Nat.add_comm]

/-- A guarded table term of the engine's sums is the product with a power of α. -/
theorem xor_tableTerm (acc c : Byte) (e : Nat) :
    (if c ≠ 0 then acc ^^^ exp256 ((log256 c + e) % 255) else acc) = acc ^^^ product .gf256 c (alpha .gf256 e) := by
  by_cases hc0 : c = 0
  · simp [hc0]
  · have hterm : exp256 ((log256 c + e) % 255) = product .gf256 c (alpha .gf256 e) := by
      calc exp256 ((log256 c + e) % 255) = alpha .gf256 (log256 c + e) := fieldExp_mod .gf256 _
        _ = product .gf256 (alpha .gf256 (log256 c)) (alpha .gf256 e) := (product_alpha_alpha ..).symm
        _ = product .gf256 c (alpha .gf256 e) := congrArg (product .gf256 · _) (alpha_fieldLog (f := .gf256) rfl hc0)
    rw [if_pos hc0, hterm]

theorem polyValue_zero (p : Poly) : polyValue p 0#8 = coeff p 0 := by
  have hrest : ∀ k < 63, product .gf256 (coeff p (k + 1)) (power 0#8 (k + 1)) = 0 := fun k _ => by
    rw [power_succ, product_zero_left, product_zero_right]
    rfl
  rw [polyValue, xorSum_succ_left, xorSum_eq_zero hrest]
  exact BitVec.xor_zero.trans (product_one_right .gf256 _)

/-- `poly_eval` gives the value of the polynomial at every point. -/
theorem polyEval_eq_polyValue (p : Poly) (x : Byte) : polyEval p x = polyValue p x := by
  by_cases hx0 : x = 0
  · rw [polyEval, if_pos hx0, hx0]
    exact (polyValue_zero p).symm
  · have hpower (k : Nat) : power x k = alpha .gf256 (log256 x * k) := by
      rw [← power_alpha]
      exact congrArg (power · k) (alpha_fieldLog (f := .gf256) rfl hx0).symm
    rw [polyEval, if_neg hx0, polyValue, xorSum]
    refine forUp_congr 0 fun k _ acc => ?_
    rw [xor_tableTerm, hpower]

/-! ### The Chien and Forney step (43_rs_decode.md R96) -/

theorem positionInverse_eq_alpha (i : Nat) : positionInverse i = alpha .gf256 (255 - i) := fieldExp_mod .gf256 _

/-- What the step adds to the byte of degree `i`: the magnitude where the inverse element is a root of the locator. -/
def chienCorrection (sigma sderiv omega : Poly) (i : Nat) : Byte :=
  if polyEval sigma (positionInverse i) = 0 then magnitude sderiv omega (positionInverse i) else 0

/-- Every byte of the block gets its correction: after `k` rounds those of degree below `k` have it. -/
theorem coeff_chienForney (sigma sderiv omega blk : Poly) {nb i : Nat} (hnb : nb ≤ 64) (hi : i < nb) :
    coeff (chienForney sigma sderiv omega blk nb).1 (nb - 1 - i) =
      coeff blk (nb - 1 - i) ^^^ chienCorrection sigma sderiv omega i := by
  have hrounds : ∀ j < nb, coeff (chienForney sigma sderiv omega blk nb).1 (nb - 1 - j) =
      coeff blk (nb - 1 - j) ^^^ if j < nb then chienCorrection sigma sderiv omega j else 0 := by
    refine forUp_invariant (fun k (r : Poly × Nat) => ∀ j < nb, coeff r.1 (nb - 1 - j) =
      coeff blk (nb - 1 - j) ^^^ if j < k then chienCorrection sigma sderiv omega j else 0)
      (fun _ _ => by simp) fun k hk r ih j hj => ?_
    rcases eq_or_ne j k with rfl | hne
    · have hbefore : coeff r.1 (nb - 1 - j) = coeff blk (nb - 1 - j) := by simpa using ih j hj
      rw [if_pos (Nat.lt_succ_self j), chienCorrection]
      dsimp only
      split_ifs
      · rw [coeff_setCoeff_self _ _ (by omega), hbefore]
      · simpa using hbefore
    · have hother : j < k + 1 ↔ j < k := Nat.lt_succ_iff_lt_or_eq.trans (or_iff_left hne)
      rw [if_congr hother rfl rfl, ← ih j hj]
      dsimp only
      split_ifs
      · exact coeff_setCoeff_ne _ _ (by omega)
      · rfl
  rw [hrounds i hi, if_pos hi]

theorem chienForney_count (sigma sderiv omega blk : Poly) (nb : Nat) :
    (chienForney sigma sderiv omega blk nb).2 =
      (List.range nb).countP fun i => polyEval sigma (positionInverse i) == 0 := by
  refine forUp_invariant (fun k (r : Poly × Nat) =>
    r.2 = (List.range k).countP fun i => polyEval sigma (positionInverse i) == 0) rfl fun k _ r ih => ?_
  rw [List.range_succ, List.countP_append, ← ih, List.countP_singleton]
  simp only [beq_iff_eq]
  split_ifs <;> rfl

/-- Settles O55: each byte gets its correction, where `poly_eval` is the value of the polynomial, the magnitude is R78's
quotient and is never 0, and the rounds count the roots. -/
theorem rsChienCorrectsTheRoots : Obligations.RsChienCorrectsTheRoots := by
  intro s hblock n root
  have hn : n ≤ 64 := hblock.2.2
  have hvalue (p : Poly) (i : Nat) : polyEval p (positionInverse i) = polyValue p (alpha .gf256 (255 - i)) := by
    rw [polyEval_eq_polyValue, positionInverse_eq_alpha]
  have hroot : (fun i => polyEval s.sigma (positionInverse i) == 0) = root := funext fun i => by rw [hvalue]
  refine ⟨(chienForney s.sigma s.sderiv s.omega s.blk n).1, fun i hi hno => ?_, fun i hi hyes => ?_,
    fun j hj => coeff_chienForney_of_ge _ _ _ _ hj, ?_⟩
  · have hne : polyEval s.sigma (positionInverse i) ≠ 0 := by rw [hvalue]; exact ne_of_beq_false hno
    rw [coeff_chienForney _ _ _ _ hn hi, chienCorrection, if_neg hne]
    exact BitVec.xor_zero
  · have heq : polyEval s.sigma (positionInverse i) = 0 := by rw [hvalue]; exact eq_of_beq hyes
    refine ⟨magnitude s.sderiv s.omega (positionInverse i), lutDiv_ne_zero _ _, ?_, ?_⟩
    · rw [← hvalue, ← hvalue]
      exact isTableQuotient_lutDiv _ _
    · rw [coeff_chienForney _ _ _ _ hn hi, chienCorrection, if_pos heq]
  · rw [← hroot, ← chienForney_count s.sigma s.sderiv s.omega s.blk, exec_eq_effect, effectOf,
      (blockOk_iff s.cfg).mp hblock]
    rfl

end Sys2Proof.Proofs
end

section
/-! SUPPORT and proofs. The Reed-Solomon encoder: the generator's coefficients and roots, the long division as an
evaluation at a root, and the syndromes of the encoded block (42_rs_encode.md R87 to R91; 43_rs_decode.md R93). -/

namespace Sys2Proof.Proofs

open Sys2Proof.Machine Sys2Proof.Claims

/-! ### Sums of powers in GF(256) -/

theorem product_xorSum (f : GField) (c : Byte) (n : Nat) (g : Nat → Byte) :
    product f c (xorSum n g) = xorSum n (fun k => product f c (g k)) :=
  map_xorSum (product_xor_right f c) n g

@[simp] theorem product_one_left (a : Byte) : product .gf256 1#8 a = a := by
  rw [product_comm (f := .gf256) rfl rfl, product_one_right]

theorem product_left_comm (a b c : Byte) :
    product .gf256 a (product .gf256 b c) = product .gf256 b (product .gf256 a c) := by
  rw [← product_assoc (f := .gf256) rfl rfl rfl, product_comm (f := .gf256) (a := a) rfl rfl,
    product_assoc (f := .gf256) rfl rfl rfl]

/-- `x · Σ c_k·x^k = Σ c_k·x^(k+1)`. -/
theorem product_powerSum (x : Byte) (n : Nat) (c : Nat → Byte) :
    product .gf256 x (xorSum n fun k => product .gf256 (c k) (power x k)) =
      xorSum n fun k => product .gf256 (c k) (power x (k + 1)) := by
  simp only [product_xorSum, power_succ, product_left_comm x]

/-- `Σ r·c_k·x^k = r · Σ c_k·x^k`. -/
theorem powerSum_product (r x : Byte) (n : Nat) (c : Nat → Byte) :
    (xorSum n fun k => product .gf256 (product .gf256 r (c k)) (power x k)) =
      product .gf256 r (xorSum n fun k => product .gf256 (c k) (power x k)) := by
  rw [product_xorSum]
  exact xorSum_congr fun k _ => product_assoc (f := .gf256) rfl rfl rfl

/-- A block with one more byte, by Horner's rule. -/
theorem blockValue_succ (blk : Poly) (n : Nat) (x : Byte) :
    blockValue blk (n + 1) x = product .gf256 x (blockValue blk n x) ^^^ coeff blk n := by
  rw [blockValue, blockValue, product_powerSum, xorSum_succ_left, BitVec.xor_comm]
  refine congrArg₂ _ (xorSum_congr fun j _ => ?_) (product_one_right .gf256 _)
  have hindex : n + 1 - 1 - (j + 1) = n - 1 - j := by omega
  rw [hindex]

/-- A block of two parts: its bytes from `k` on are those of `tail`. -/
theorem blockValue_append {blk tail : Poly} {k n : Nat} (x : Byte) (h : ∀ j < n, coeff blk (k + j) = coeff tail j) :
    blockValue blk (k + n) x = product .gf256 (power x n) (blockValue blk k x) ^^^ blockValue tail n x := by
  induction n with
  | zero => exact (BitVec.xor_zero.trans (product_one_left _)).symm
  | succ n ih =>
    rw [← Nat.add_assoc, blockValue_succ, ih fun j hj => h j (Nat.lt_succ_of_lt hj), blockValue_succ, power_succ,
      h n (Nat.lt_succ_self n), product_xor_right, product_assoc (f := .gf256) rfl rfl rfl, BitVec.xor_assoc]

/-- Blocks with the same first bytes have the same value. -/
theorem blockValue_congr {p q : Poly} {n : Nat} (x : Byte) (h : ∀ j < n, coeff p j = coeff q j) :
    blockValue p n x = blockValue q n x :=
  xorSum_congr fun j hj => by rw [h (n - 1 - j) (by omega)]

/-! ### The generator polynomial (42_rs_encode.md R87, R88) -/

/-- The coefficient of `x^k` in `(x + r)·c(x)`. -/
def timesRootCoeff (r : Byte) (c : Nat → Byte) (k : Nat) : Byte :=
  (if 1 ≤ k then c (k - 1) else 0) ^^^ product .gf256 r (c k)

/-- `timesRoot` writes the coefficients up to `n`: after `t` rounds the upper `t` of them. -/
theorem coeff_timesRoot {n : Nat} (hn : n ≤ 63) (r : Byte) (g : Poly) (k : Nat) :
    coeff (timesRoot n r g) k = if k ≤ n then timesRootCoeff r (coeff g) k else coeff g k := by
  have hrounds : ∀ k, coeff (timesRoot n r g) k =
      if k ≤ n ∧ n < k + (n + 1) then timesRootCoeff r (coeff g) k else coeff g k := by
    refine forUp_invariant (fun t p => ∀ k, coeff p k =
      if k ≤ n ∧ n < k + t then timesRootCoeff r (coeff g) k else coeff g k)
      (fun k => (if_neg fun ⟨hle, hlt⟩ => Nat.not_lt_of_le hle hlt).symm) fun t ht p ih k => ?_
    dsimp only
    rcases eq_or_ne k (n - t) with rfl | hne
    · have hself : coeff p (n - t) = coeff g (n - t) := (ih _).trans (if_neg (by omega))
      have hbelow (h : 1 ≤ n - t) : coeff p (n - t - 1) = coeff g (n - t - 1) := (ih _).trans (if_neg (by omega))
      have hwritten : n - t ≤ n ∧ n < n - t + (t + 1) := by omega
      rw [coeff_setCoeff_self _ _ (by omega), if_pos hwritten, gfMul_eq_product rfl rfl, hself, timesRootCoeff]
      exact congrArg (· ^^^ _) (ite_congr rfl hbelow fun _ => rfl)
    · have hwritten : k ≤ n ∧ n < k + (t + 1) ↔ k ≤ n ∧ n < k + t := by omega
      rw [coeff_setCoeff_ne _ _ hne, ih, if_congr hwritten rfl rfl]
  rw [hrounds k, if_congr (and_iff_left (by omega)) rfl rfl]

theorem generatorCoeff_succ (n k : Nat) :
    generatorCoeff (n + 1) k = timesRootCoeff (alpha .gf256 n) (generatorCoeff n) k := rfl

/-- The generator has degree `n`. -/
theorem generatorCoeff_of_gt {n k : Nat} (h : n < k) : generatorCoeff n k = 0#8 := by
  induction n generalizing k with
  | zero => exact if_neg h.ne'
  | succ n ih =>
    rw [generatorCoeff_succ, timesRootCoeff, if_pos (by omega), ih (by omega), ih (by omega), product_zero_right]
    rfl

/-- The generator is monic. -/
theorem generatorCoeff_self (n : Nat) : generatorCoeff n n = 1#8 := by
  induction n with
  | zero => rfl
  | succ n ih =>
    rw [generatorCoeff_succ, timesRootCoeff, if_pos (by omega), Nat.add_sub_cancel, ih,
      generatorCoeff_of_gt (Nat.lt_succ_self n), product_zero_right]
    rfl

/-- RS_GEN's loop gives the product of the factors `x + α^i`. -/
theorem coeff_generator {n : Nat} (hn : n ≤ 63) (k : Nat) : coeff (generator n) k = generatorCoeff n k := by
  refine forUp_invariant (fun i g => ∀ k, coeff g k = generatorCoeff i k) coeff_onePoly (fun i hi g ih k => ?_) k
  have hexp : exp256 i = alpha .gf256 i := fieldExp_eq_alpha (f := .gf256) (show i ≤ 255 by omega)
  rw [coeff_timesRoot hn, funext ih, hexp, ← generatorCoeff_succ]
  split_ifs with hk
  · rfl
  · rw [generatorCoeff_of_gt (by omega), generatorCoeff_of_gt (by omega)]

/-- The value of the generator polynomial, from its coefficients. -/
def generatorValue (n : Nat) (x : Byte) : Byte :=
  xorSum (n + 1) fun k => product .gf256 (generatorCoeff n k) (power x k)

/-- One more root is one more factor `x + α^n`. -/
theorem generatorValue_succ (n : Nat) (x : Byte) :
    generatorValue (n + 1) x = product .gf256 (x ^^^ alpha .gf256 n) (generatorValue n x) := by
  have hshift : (xorSum (n + 2) fun k =>
      product .gf256 (if 1 ≤ k then generatorCoeff n (k - 1) else 0) (power x k)) =
        product .gf256 x (generatorValue n x) := by
    rw [generatorValue, product_powerSum, xorSum_succ_left]
    simp
  have hroot : (xorSum (n + 2) fun k =>
      product .gf256 (product .gf256 (alpha .gf256 n) (generatorCoeff n k)) (power x k)) =
        product .gf256 (alpha .gf256 n) (generatorValue n x) := by
    rw [powerSum_product, xorSum_succ, generatorCoeff_of_gt (Nat.lt_succ_self n), product_zero_left]
    exact congrArg _ BitVec.xor_zero
  rw [product_xor_left, ← hshift, ← hroot, ← xorSum_xor]
  exact xorSum_congr fun k _ => by rw [generatorCoeff_succ, timesRootCoeff, product_xor_left]

/-- The roots of the generator are α^0 … α^(n−1). -/
theorem generatorValue_alpha {n i : Nat} (h : i < n) : generatorValue n (alpha .gf256 i) = 0#8 := by
  induction n with
  | zero => exact absurd h (Nat.not_lt_zero i)
  | succ n ih =>
    rw [generatorValue_succ]
    rcases Nat.lt_succ_iff_lt_or_eq.mp h with hlt | rfl
    · rw [ih hlt, product_zero_right]
    · rw [BitVec.xor_self, product_zero_left]

/-- At a root of the monic generator `x^n` is the sum of the lower terms. -/
theorem lowerTerms_eq_power {n i : Nat} (h : i < n) :
    (xorSum n fun k => product .gf256 (generatorCoeff n k) (power (alpha .gf256 i) k)) = power (alpha .gf256 i) n := by
  have hvalue := generatorValue_alpha h
  rw [generatorValue, xorSum_succ, generatorCoeff_self, product_one_left] at hvalue
  exact BitVec.xor_eq_zero_iff.mp hvalue

/-- Settles O49: behind its check RS_GEN writes the generator its loop computes. -/
theorem rsGenWritesTheGenerator : Obligations.RsGenWritesTheGenerator := by
  intro s hnpar
  refine ⟨generator (effectiveNpar s.cfg), fun k _ => coeff_generator hnpar.2 k, ?_⟩
  rw [exec_eq_effect, effectOf, (nparOk_iff s.cfg).mp hnpar]
  rfl

/-! ### The long division (42_rs_encode.md R90, R91) -/

/-- A loop that writes each byte below `n` once, the value computed from the bytes not yet written. -/
theorem coeff_writeLoop (v : Nat → Byte) (value : Nat → Poly → Byte) (p : Poly) {n : Nat} (hn : n ≤ 64)
    (hv : ∀ t < n, ∀ q, (∀ i, t ≤ i → coeff q i = coeff p i) → value t q = v t) (j : Nat) :
    coeff (forUp n (fun t q => setCoeff q t (value t q)) p) j = if j < n then v j else coeff p j := by
  refine forUp_invariant (fun t q => ∀ j, coeff q j = if j < t then v j else coeff p j)
    (fun j => (if_neg (Nat.not_lt_zero j)).symm) (fun t ht q ih j => ?_) j
  rcases eq_or_ne j t with rfl | hne
  · rw [coeff_setCoeff_self _ _ (by omega), if_pos (Nat.lt_succ_self j)]
    exact hv j ht q fun i hi => (ih i).trans (if_neg (Nat.not_lt_of_le hi))
  · have hwritten : j < t + 1 ↔ j < t := Nat.lt_succ_iff_lt_or_eq.trans (or_iff_left hne)
    rw [coeff_setCoeff_ne _ _ hne, ih, if_congr hwritten rfl rfl]

/-- The shift loop of `remainderStep` moves every byte one place down. -/
theorem coeff_shiftLoop (rem : Poly) {m : Nat} (hm : m ≤ 64) (j : Nat) :
    coeff (forUp m (fun j r => setCoeff r j (coeff r (j + 1))) rem) j =
      if j < m then coeff rem (j + 1) else coeff rem j :=
  coeff_writeLoop (fun j => coeff rem (j + 1)) _ rem hm (fun t _ _ h => h (t + 1) (Nat.le_succ t)) j

/-- A loop that adds `v j` to each byte below `n`. -/
theorem coeff_addLoop (v : Nat → Byte) (p : Poly) {n : Nat} (hn : n ≤ 64) {j : Nat} (hj : j < n) :
    coeff (forUp n (fun j r => setCoeff r j (coeff r j ^^^ v j)) p) j = coeff p j ^^^ v j :=
  (coeff_writeLoop (fun j => coeff p j ^^^ v j) _ p hn (fun t _ _ h => congrArg (· ^^^ v t) (h t le_rfl)) j).trans
    (if_pos hj)

/-- One data byte's step, byte by byte. -/
theorem coeff_remainderStep (g rem : Poly) (data : Byte) {n j : Nat} (hn : n ≤ 63) (hj : j < n) :
    coeff (remainderStep g n data rem) j = (if j + 1 < n then coeff rem (j + 1) else 0) ^^^
      product .gf256 (data ^^^ coeff rem 0) (coeff g (n - 1 - j)) := by
  rw [remainderStep, coeff_addLoop _ _ (by omega) hj, gfMul_eq_product rfl rfl, product_comm (f := .gf256) rfl rfl]
  refine congrArg (· ^^^ _) ?_
  split_ifs with hlast
  · rw [coeff_setCoeff_ne _ _ (by omega), coeff_shiftLoop rem (by omega), if_pos (by omega)]
  · have hj' : j = n - 1 := by omega
    rw [hj', coeff_setCoeff_self _ _ (by omega)]

/-- The remainder moved up by one power: its first byte becomes the term of `x^n`. -/
theorem blockValue_shift (rem : Poly) {n : Nat} (hn : 1 ≤ n) (x : Byte) :
    (xorSum n fun j => product .gf256 (if 1 ≤ j then coeff rem (n - j) else 0) (power x j)) ^^^
      product .gf256 (coeff rem 0) (power x n) = product .gf256 x (blockValue rem n x) := by
  have hlast : coeff rem 0 = if 1 ≤ n then coeff rem (n - n) else 0 := by rw [if_pos hn, Nat.sub_self]
  rw [hlast, ← xorSum_succ n fun j => product .gf256 (if 1 ≤ j then coeff rem (n - j) else 0) (power x j),
    xorSum_succ_left, blockValue, product_powerSum]
  simp [Nat.sub_sub, Nat.add_comm 1]

/-- At a root of the generator, the step's remainder is the old one times `x`, plus the data byte times `x^n`. -/
theorem blockValue_remainderStep (rem : Poly) (data : Byte) {n i : Nat} (hn : n ≤ 63) (hi : i < n) :
    blockValue (remainderStep (generator n) n data rem) n (alpha .gf256 i) =
      product .gf256 (alpha .gf256 i) (blockValue rem n (alpha .gf256 i)) ^^^
        product .gf256 data (power (alpha .gf256 i) n) := by
  have hbyte : ∀ j < n, coeff (remainderStep (generator n) n data rem) (n - 1 - j) =
      (if 1 ≤ j then coeff rem (n - j) else 0) ^^^ product .gf256 (data ^^^ coeff rem 0) (generatorCoeff n j) := by
    intro j hj
    have hnext : n - 1 - j + 1 = n - j := by omega
    have hmoved : n - j < n ↔ 1 ≤ j := by omega
    have hterm : n - 1 - (n - 1 - j) = j := by omega
    rw [coeff_remainderStep _ _ _ hn (by omega), hnext, hterm, coeff_generator hn, if_congr hmoved rfl rfl]
  calc blockValue (remainderStep (generator n) n data rem) n (alpha .gf256 i)
      = (xorSum n fun j => product .gf256 (if 1 ≤ j then coeff rem (n - j) else 0) (power (alpha .gf256 i) j)) ^^^
          xorSum n fun j => product .gf256 (product .gf256 (data ^^^ coeff rem 0) (generatorCoeff n j))
            (power (alpha .gf256 i) j) := by
        rw [blockValue, ← xorSum_xor]
        exact xorSum_congr fun j hj => by rw [hbyte j hj, product_xor_left]
    _ = (xorSum n fun j => product .gf256 (if 1 ≤ j then coeff rem (n - j) else 0) (power (alpha .gf256 i) j)) ^^^
          product .gf256 (data ^^^ coeff rem 0) (power (alpha .gf256 i) n) := by
        rw [powerSum_product, lowerTerms_eq_power hi]
    _ = product .gf256 (alpha .gf256 i) (blockValue rem n (alpha .gf256 i)) ^^^
          product .gf256 data (power (alpha .gf256 i) n) := by
        rw [product_xor_left, ← blockValue_shift rem (Nat.one_le_of_lt hi)]
        ac_rfl

theorem blockValue_zeroPoly (n : Nat) (x : Byte) : blockValue zeroPoly n x = 0#8 :=
  xorSum_eq_zero fun _ _ => by rw [coeff_zeroPoly]; exact product_zero_left .gf256 _

/-- The remainder's value at a root is that of the data times `x^n`. -/
theorem blockValue_remainder (blk : Poly) (k : Nat) {n i : Nat} (hn : n ≤ 63) (hi : i < n) :
    blockValue (remainder (generator n) blk k n) n (alpha .gf256 i) =
      product .gf256 (power (alpha .gf256 i) n) (blockValue blk k (alpha .gf256 i)) := by
  refine forUp_invariant (fun t rem => blockValue rem n (alpha .gf256 i) =
    product .gf256 (power (alpha .gf256 i) n) (blockValue blk t (alpha .gf256 i))) ?_ fun t _ rem ih => ?_
  · exact (blockValue_zeroPoly n _).trans (product_zero_right .gf256 _).symm
  · rw [blockValue_remainderStep rem _ hn hi, ih, blockValue_succ, product_xor_right, product_left_comm,
      product_comm (f := .gf256) (a := coeff blk t) rfl rfl]

theorem coeff_withParity_parity (blk rem : Poly) {k n j : Nat} (hkn : k + n ≤ 64) (hj : j < n) :
    coeff (withParity blk rem k n) (k + j) = coeff rem j := by
  have hrounds := forUp_invariant (n := n) (body := fun j b => setCoeff b (k + j) (coeff rem j)) (s := blk)
    (fun t b => ∀ j < t, coeff b (k + j) = coeff rem j) (fun j hj => absurd hj (Nat.not_lt_zero j))
    fun t ht b ih j hj => ?_
  · exact hrounds j hj
  rcases Nat.lt_succ_iff_lt_or_eq.mp hj with hlt | rfl
  · rw [coeff_setCoeff_ne _ _ (by omega), ih j hlt]
  · exact coeff_setCoeff_self _ _ (by omega)

/-- The data and the remainder of its division by the generator are a codeword. -/
theorem isCodeword_withParity (blk : Poly) {k n : Nat} (hn : n ≤ 63) (hkn : k + n ≤ 64) :
    IsCodeword (withParity blk (remainder (generator n) blk k n) k n) (k + n) n := by
  intro i hi
  rw [blockValue_append _ fun j hj => coeff_withParity_parity blk _ hkn hj,
    blockValue_congr _ fun j hj => coeff_withParity blk _ (.inl hj), blockValue_remainder blk k hn hi]
  exact BitVec.xor_self

/-- Settles O50: RS_ENC's parity is the remainder, which makes the block a codeword. -/
theorem rsEncMakesACodeword : Obligations.RsEncMakesACodeword := by
  intro s hblock
  have ⟨⟨_, hn⟩, _, hkn⟩ := hblock
  set n := effectiveNpar s.cfg
  refine ⟨withParity s.blk (remainder (generator n) s.blk s.cfg.k.toNat n) s.cfg.k.toNat n, generator n, ?_,
    fun j hj => coeff_withParity _ _ hj, fun k _ => coeff_generator hn k, isCodeword_withParity s.blk hn hkn⟩
  rw [exec_eq_effect, effectOf, (blockOk_iff s.cfg).mp hblock]
  rfl

/-! ### The syndromes (43_rs_decode.md R93) -/

/-- A syndrome is the value of the block at its power of α. -/
theorem syndromeAt_eq_blockValue (blk : Poly) (nb i : Nat) :
    syndromeAt blk nb i = blockValue blk nb (alpha .gf256 i) :=
  forUp_congr 0 fun j _ acc => by rw [xor_tableTerm, ← power_alpha]

/-- SYN holds the values of the block at α^0 … α^(n−1), and 0 beyond. -/
theorem coeff_syndromes (blk : Poly) (nb : Nat) {n : Nat} (hn : n ≤ 64) (i : Nat) :
    coeff (syndromes blk nb n) i = if i < n then blockValue blk nb (alpha .gf256 i) else 0 := by
  rw [← coeff_zeroPoly i]
  exact coeff_writeLoop (fun i => blockValue blk nb (alpha .gf256 i)) _ zeroPoly hn
    (fun t _ _ _ => syndromeAt_eq_blockValue blk nb t) i

theorem anyNonzero_iff (p : Poly) (n : Nat) : anyNonzero p n = true ↔ ∃ i < n, coeff p i ≠ 0 := by
  simp [anyNonzero]

/-- A codeword has no nonzero syndrome. -/
theorem coeff_syndromes_of_isCodeword {blk : Poly} {nb n : Nat} (hn : n ≤ 64) (h : IsCodeword blk nb n) (i : Nat) :
    coeff (syndromes blk nb n) i = 0 := by
  rw [coeff_syndromes blk nb hn]
  split_ifs with hi
  · exact h i hi
  · rfl

/-- RS_SYN's completion behind its check. -/
theorem exec_rsSyn {s : State} (h : BlockOk s.cfg) : exec .rsSyn s =
    .next (complete .ok ((synEffect (blockLength s.cfg) (effectiveNpar s.cfg) s.blk).apply s)) := by
  rw [exec_eq_effect, effectOf, (blockOk_iff s.cfg).mp h]
  rfl

/-- Settles O51: the block RS_ENC leaves is a codeword, and RS_SYN evaluates it at the same roots. -/
theorem encodedBlockHasZeroSyndromes : Obligations.EncodedBlockHasZeroSyndromes := by
  intro s t hblock ht
  obtain ⟨blk, gen, henc, -, -, hcode⟩ := rsEncMakesACodeword s hblock
  obtain rfl : completed .ok { s with blk := blk, gen := gen, rsInfo := withNparUsed s } = t :=
    Host.Outcome.next.inj (henc.symm.trans ht)
  have hzero := coeff_syndromes_of_isCodeword (hblock.1.2.trans (by decide)) hcode
  have hnz : anyNonzero (syndromes blk (blockLength s.cfg) (effectiveNpar s.cfg)) (effectiveNpar s.cfg) = false := by
    rw [← Bool.not_eq_true, anyNonzero_iff]
    exact fun ⟨i, _, hne⟩ => hne (hzero i)
  exact ⟨_, exec_rsSyn hblock, hzero, hnz, rfl⟩

end Sys2Proof.Proofs
end

section
/-! SUPPORT and proofs. The decoder's single steps: RS_SYN, and the loops of RS_OMEGA as a formal derivative and a
truncated product (43_rs_decode.md R93, R95, R97, R99). -/

namespace Sys2Proof.Proofs

open Sys2Proof.Machine Sys2Proof.Claims

/-! ### The syndrome command (43_rs_decode.md R97) -/

/-- Settles O52: RS_SYN's writes are the syndromes, whose bytes are the block's values. -/
theorem rsSynEvaluatesTheBlock : Obligations.RsSynEvaluatesTheBlock := by
  intro s hblock
  have hcoeff := coeff_syndromes s.blk (blockLength s.cfg) (hblock.1.2.trans (by decide : 63 ≤ 64))
  exact ⟨_, _, fun i hi => (hcoeff i).trans (if_pos hi), fun i hi => (hcoeff i).trans (if_neg hi.not_gt),
    anyNonzero_iff _ _, exec_rsSyn hblock⟩

/-! ### Loops that add into a window of a buffer -/

/-- A loop that adds `v j` to the byte at `i + j` for each `j` below `m`; bytes past the buffer are dropped. -/
theorem coeff_addLoopAt (v : Nat → Byte) (p : Poly) (i m : Nat) {k : Nat} (hk : k < 64) :
    coeff (forUp m (fun j o => setCoeff o (i + j) (coeff o (i + j) ^^^ v j)) p) k =
      coeff p k ^^^ if i ≤ k ∧ k < i + m then v (k - i) else 0 := by
  refine forUp_invariant (fun m o => coeff o k = coeff p k ^^^ if i ≤ k ∧ k < i + m then v (k - i) else 0)
    (by rw [if_neg (by omega)]; exact BitVec.xor_zero.symm) fun j _ o ih => ?_
  rcases eq_or_ne k (i + j) with rfl | hne
  · rw [coeff_setCoeff_self _ _ hk, ih]
    simp
  · have hwritten : i ≤ k ∧ k < i + (j + 1) ↔ i ≤ k ∧ k < i + j := by omega
    rw [coeff_setCoeff_ne _ _ hne, ih, if_congr hwritten rfl rfl]

/-- The terms of a sum from `m` on are 0. -/
theorem xorSum_truncate {m n : Nat} {g : Nat → Byte} (hmn : m ≤ n) (h : ∀ k, m ≤ k → k < n → g k = 0) :
    xorSum n g = xorSum m g := by
  induction n, hmn using Nat.le_induction with
  | base => rfl
  | succ n hmn ih =>
    rw [xorSum_succ, ih fun k hk hlt => h k hk (Nat.lt_succ_of_lt hlt), h n hmn (Nat.lt_succ_self n)]
    exact BitVec.xor_zero

/-! ### The derivative and the evaluator (43_rs_decode.md R95) -/

theorem coeff_derivative (sigma : Poly) (i : Nat) :
    coeff (derivative sigma) i = if i % 2 = 0 ∧ i ≤ 62 then coeff sigma (i + 1) else 0 := by
  by_cases hi : i < 64
  · exact (coeff_writeLoop (fun i => if i % 2 = 0 ∧ i ≤ 62 then coeff sigma (i + 1) else 0) _ zeroPoly le_rfl
      (fun _ _ _ _ => rfl) i).trans (if_pos hi)
  · rw [coeff_of_ge _ (by omega), if_neg (by omega)]

/-- One round of the evaluator: the multiple `a·x^i` of the shifted syndromes, below degree `m`. -/
theorem coeff_evaluatorRound (syn o : Poly) (a : Byte) {m i k : Nat} (hi : i < m) (hk : k < 64) :
    coeff (if a ≠ 0 then
        forUp (m - i) (fun j o =>
          if coeff syn (j + 1) ≠ 0 then
            setCoeff o (i + j) (coeff o (i + j) ^^^ gfMul .gf256 a (coeff syn (j + 1)))
          else o) o
      else o) k =
      coeff o k ^^^ if i ≤ k ∧ k < m then product .gf256 a (coeff syn (k - i + 1)) else 0 := by
  have hbody : (fun (j : Nat) (o : Poly) => if coeff syn (j + 1) ≠ 0 then
        setCoeff o (i + j) (coeff o (i + j) ^^^ gfMul .gf256 a (coeff syn (j + 1))) else o) =
      fun j o => setCoeff o (i + j) (coeff o (i + j) ^^^ product .gf256 a (coeff syn (j + 1))) := by
    funext j o
    by_cases hsyn : coeff syn (j + 1) = 0
    · simp [hsyn]
    · rw [if_pos hsyn, gfMul_eq_product rfl rfl]
  have hwindow : i ≤ k ∧ k < i + (m - i) ↔ i ≤ k ∧ k < m := by omega
  by_cases ha : a = 0
  · simp [ha]
  · rw [if_pos ha, hbody, coeff_addLoopAt (fun j => product .gf256 a (coeff syn (j + 1))) o i _ hk,
      if_congr hwindow rfl rfl]

/-- The evaluator is the product of the locator and the shifted syndromes below degree `n - 1`. -/
theorem coeff_evaluator (sigma syn : Poly) {n : Nat} (hn : n ≤ 64) (k : Nat) :
    coeff (evaluator sigma syn n) k = if k + 1 < n then
      xorSum (k + 1) (fun i => product .gf256 (coeff sigma i) (coeff syn (k - i + 1))) else 0 := by
  by_cases hk : k < 64
  · have hrounds : coeff (evaluator sigma syn n) k = xorSum (n - 1) fun i =>
        if i ≤ k ∧ k < n - 1 then product .gf256 (coeff sigma i) (coeff syn (k - i + 1)) else 0 := by
      refine forUp_invariant (fun t o => coeff o k = xorSum t fun i =>
        if i ≤ k ∧ k < n - 1 then product .gf256 (coeff sigma i) (coeff syn (k - i + 1)) else 0)
        (coeff_zeroPoly k) fun i hi o ih => ?_
      rw [xorSum_succ, ← ih]
      exact coeff_evaluatorRound syn o _ hi hk
    rw [hrounds]
    split_ifs with hlt
    · rw [xorSum_truncate (m := k + 1) (by omega) fun i hi _ => if_neg (by omega)]
      exact xorSum_congr fun i hi => if_pos (by omega)
    · exact xorSum_eq_zero fun i _ => if_neg (by omega)
  · rw [coeff_of_ge _ (by omega), if_neg (by omega)]

/-- RS_OMEGA's completion behind its check. -/
theorem exec_rsOmega {s : State} (h : NparOk s.cfg) : exec .rsOmega s =
    .next (complete .ok ((omegaEffect (effectiveNpar s.cfg) s.sigma s.syn).apply s)) := by
  rw [exec_eq_effect, effectOf, (nparOk_iff s.cfg).mp h]
  rfl

/-- Settles O54: RS_OMEGA's writes are the derivative and the evaluator. -/
theorem rsOmegaWritesDerivativeAndEvaluator : Obligations.RsOmegaWritesDerivativeAndEvaluator := by
  intro s hnpar
  exact ⟨_, _, coeff_derivative s.sigma, coeff_evaluator s.sigma s.syn (hnpar.2.trans (by decide)),
    exec_rsOmega hnpar⟩

end Sys2Proof.Proofs
end

section
/-! SUPPORT. GF(256) as a Mathlib field, and the buffers as polynomials over it (00_scope.md R11;
41_galois_field.md R73, R77; 43_rs_decode.md R95). -/

namespace Sys2Proof.Proofs

open Sys2Proof.Machine Sys2Proof.Claims Polynomial

/-! ### GF(256) as a field -/

/-- The inverse of a byte, 0 for 0. -/
def byteInv (a : Byte) : Byte := if a = 0 then 0 else gfDiv .gf256 1 a

theorem byteInv_zero : byteInv 0 = 0 := if_pos rfl

theorem product_byteInv {a : Byte} (ha : a ≠ 0) : product .gf256 a (byteInv a) = 1 := by
  rw [byteInv, if_neg ha, product_comm (f := .gf256) rfl rfl]
  exact product_gfDiv (f := .gf256) rfl rfl ha

/-- The bytes with xor and the reduced carry-less product (41_galois_field.md R77). -/
@[reducible] def byteField : Field Byte :=
  letI : Add Byte := ⟨(· ^^^ ·)⟩
  letI : Mul Byte := ⟨product .gf256⟩
  letI : Neg Byte := ⟨id⟩
  letI : Inv Byte := ⟨byteInv⟩
  Field.ofMinimalAxioms Byte BitVec.xor_assoc (fun _ => BitVec.zero_xor) (fun _ => BitVec.xor_self)
    (fun _ _ _ => product_assoc (f := .gf256) rfl rfl rfl) (fun _ _ => product_comm (f := .gf256) rfl rfl)
    product_one_left (fun _ => product_byteInv) byteInv_zero (product_xor_right .gf256) ⟨0, 1, by decide⟩

/-- The bytes read as elements of a field: xor is its sum and the reduced product its product. -/
structure ByteModel (F : Type) [Field F] where
  elem : Byte → F
  injective : Function.Injective elem
  elem_xor : ∀ a b, elem (a ^^^ b) = elem a + elem b
  elem_product : ∀ a b, elem (product .gf256 a b) = elem a * elem b
  elem_one : elem 1#8 = 1

/-- GF(256) is such a field, so what holds over every such field holds of the bytes. -/
theorem exists_byteModel : ∃ (F : Type) (_ : Field F), Nonempty (ByteModel F) :=
  ⟨Byte, byteField, ⟨@ByteModel.mk Byte byteField id Function.injective_id (fun _ _ => rfl) (fun _ _ => rfl) rfl⟩⟩

namespace ByteModel

variable {F : Type} [Field F] (φ : ByteModel F)

@[simp] theorem elem_zero : φ.elem 0#8 = 0 := by
  have h := φ.elem_xor 0#8 0#8
  rw [BitVec.xor_self] at h
  exact left_eq_add.mp h

theorem elem_eq_zero_iff (a : Byte) : φ.elem a = 0 ↔ a = 0#8 := by
  rw [← φ.elem_zero, φ.injective.eq_iff]

include φ in
/-- A byte is its own negative, so the field has characteristic 2. -/
theorem charP_two : CharP F 2 := by
  refine CharTwo.of_one_ne_zero_of_two_eq_zero one_ne_zero ?_
  rw [← one_add_one_eq_two, ← φ.elem_one, ← φ.elem_xor, BitVec.xor_self, φ.elem_zero]

theorem elem_xorSum (n : Nat) (g : Nat → Byte) : φ.elem (xorSum n g) = ∑ k ∈ Finset.range n, φ.elem (g k) := by
  induction n with
  | zero => exact φ.elem_zero
  | succ n ih => rw [xorSum_succ, φ.elem_xor, ih, Finset.sum_range_succ]

theorem elem_power (x : Byte) (k : Nat) : φ.elem (power x k) = φ.elem x ^ k := by
  induction k with
  | zero => exact φ.elem_one.trans (pow_zero _).symm
  | succ k ih => rw [power_succ, φ.elem_product, ih, pow_succ']

/-! ### Buffers as polynomials (00_scope.md R11) -/

/-- The polynomial a buffer holds. -/
noncomputable def poly (p : Poly) : F[X] := ∑ k ∈ Finset.range 64, monomial k (φ.elem (coeff p k))

@[simp] theorem coeff_poly (p : Poly) (i : Nat) : (φ.poly p).coeff i = φ.elem (coeff p i) := by
  by_cases hi : i < 64
  · simp [poly, coeff_monomial, hi]
  · simp [poly, coeff_monomial, hi, coeff_of_ge p (Nat.le_of_not_lt hi)]

theorem natDegree_poly_le_iff (p : Poly) (l : Nat) : (φ.poly p).natDegree ≤ l ↔ ∀ i, l < i → coeff p i = 0 := by
  simp only [natDegree_le_iff_coeff_eq_zero, coeff_poly, elem_eq_zero_iff]
  rfl

theorem elem_polyValue (p : Poly) (x : Byte) : φ.elem (polyValue p x) = (φ.poly p).eval (φ.elem x) := by
  simp only [polyValue, elem_xorSum, elem_product, elem_power, poly, eval_finsetSum, eval_monomial]

theorem poly_onePoly : φ.poly onePoly = 1 := by
  ext i
  rw [coeff_poly, coeff_onePoly, coeff_one]
  split_ifs
  · exact φ.elem_one
  · exact φ.elem_zero

/-- SDERIV is the derivative: in characteristic 2 only the odd-degree terms survive (43_rs_decode.md R95). -/
theorem poly_derivative (sigma : Poly) : φ.poly (Machine.derivative sigma) = (φ.poly sigma).derivative := by
  have := φ.charP_two
  ext i
  have hcast : (i + 1 : F) = if i % 2 = 0 then 1 else 0 := by
    rw [← Nat.cast_add_one, CharTwo.natCast_eq_ite]
    simp only [Nat.even_add_one, Nat.even_iff, ite_not]
  rw [Polynomial.coeff_derivative, coeff_poly, coeff_poly, coeff_derivative, hcast]
  by_cases hodd : i % 2 = 0
  · by_cases hi : i ≤ 62
    · simp [hodd, hi]
    · simp [hodd, hi, coeff_of_ge sigma (show 64 ≤ i + 1 by omega)]
  · simp [hodd]

end ByteModel

end Sys2Proof.Proofs
end

section
/-! SUPPORT and proofs. Berlekamp-Massey: the iteration over an arbitrary field, that the engine's steps are that
iteration, and RS_BM (43_rs_decode.md R94, R98). -/

namespace Sys2Proof.Proofs

open Sys2Proof.Machine Sys2Proof.Claims Polynomial

/-! ### Locators over a field -/

section Massey

variable {F : Type} [Field F]

/-- `c` is a locator of length `l` of the first `n` coefficients of `S`: the discrepancies are the coefficients of
`c·S` (the polynomial form of `IsLocator`). -/
structure PolyLocator (S : F[X]) (n : Nat) (c : F[X]) (l : Nat) : Prop where
  const : c.coeff 0 = 1
  degree : c.natDegree ≤ l
  vanish : ∀ q, l ≤ q → q < n → (c * S).coeff q = 0

theorem PolyLocator.of_succ {S c : F[X]} {n l : Nat} (h : PolyLocator S (n + 1) c l) : PolyLocator S n c l :=
  ⟨h.const, h.degree, fun q hl hq => h.vanish q hl (Nat.lt_succ_of_lt hq)⟩

theorem PolyLocator.ne_zero {S c : F[X]} {n l : Nat} (h : PolyLocator S n c l) : c ≠ 0 := by
  rintro rfl
  exact zero_ne_one h.const

/-- A discrepancy has only the terms up to the locator's length. -/
theorem coeff_mul_eq_sum {c : F[X]} (S : F[X]) {l q : Nat} (hdeg : c.natDegree ≤ l) (hlq : l ≤ q) :
    (c * S).coeff q = ∑ i ∈ Finset.range (l + 1), c.coeff i * S.coeff (q - i) := by
  rw [coeff_mul, Finset.Nat.sum_antidiagonal_eq_sum_range_succ_mk]
  refine (Finset.sum_subset (Finset.range_mono (Nat.succ_le_succ hlq)) fun i _ hi => ?_).symm
  rw [Finset.mem_range, not_lt] at hi
  rw [coeff_eq_zero_of_natDegree_lt (by omega), zero_mul]

/-- Where the last `l` coefficients of `T` before `q` are 0, a factor of degree at most `l` with constant term 1 keeps
the coefficient at `q`. -/
theorem coeff_mul_eq_of_vanish {c T : F[X]} {l q : Nat} (hconst : c.coeff 0 = 1) (hdeg : c.natDegree ≤ l)
    (hzero : ∀ r, q ≤ r + l → r < q → T.coeff r = 0) : (c * T).coeff q = T.coeff q := by
  rw [coeff_mul, Finset.Nat.sum_antidiagonal_eq_sum_range_succ_mk, Finset.sum_range_succ', hconst, one_mul,
    Nat.sub_zero, Finset.sum_eq_zero, zero_add]
  intro i hi
  rw [Finset.mem_range] at hi
  by_cases hil : i + 1 ≤ l
  · rw [hzero _ (by omega) (by omega), mul_zero]
  · rw [coeff_eq_zero_of_natDegree_lt (by omega), zero_mul]

/-- Massey's bound: when a locator fails at `q`, any locator that reaches past `q` makes up the difference in length. -/
theorem PolyLocator.length_bound {S c c' : F[X]} {q l l' : Nat} (h : PolyLocator S q c l)
    (hfail : (c * S).coeff q ≠ 0) (h' : PolyLocator S (q + 1) c' l') : q + 1 ≤ l + l' := by
  by_contra hlt
  refine hfail ?_
  calc (c * S).coeff q
      = (c' * (c * S)).coeff q :=
        (coeff_mul_eq_of_vanish h'.const h'.degree fun r _ hr => h.vanish r (by omega) hr).symm
    _ = (c * (c' * S)).coeff q := by rw [mul_left_comm]
    _ = (c' * S).coeff q :=
        coeff_mul_eq_of_vanish h.const h.degree fun r _ hr => h'.vanish r (by omega) (by omega)
    _ = 0 := h'.vanish q (by omega) (Nat.lt_succ_self q)

/-! ### The iteration -/

/-- The invariant of Berlekamp-Massey before step `q`: `c` is a shortest locator, and `d = x^m·B` is the correction
whose discrepancies are `b` at `q` and 0 at the `l - 1` steps before it (nothing is asked of them while the length is 0). -/
structure MasseyState (S : F[X]) (q : Nat) (c d : F[X]) (l : Nat) (b : F) : Prop where
  locator : PolyLocator S q c l
  length_le : l ≤ q
  shortest : ∀ c' l', PolyLocator S q c' l' → l ≤ l'
  nonzero : b ≠ 0
  const : d.coeff 0 = 0
  degree : d.natDegree + l ≤ q + 1
  vanish : 0 < l → ∀ r, q < r + l → r < q → (d * S).coeff r = 0
  last : 0 < l → (d * S).coeff q = b

namespace MasseyState

variable {S c d : F[X]} {q l : Nat} {b : F}

theorem start : MasseyState S 0 1 X 0 (1 : F) where
  locator := ⟨coeff_one_zero, natDegree_one.le, fun q _ hq => absurd hq (Nat.not_lt_zero q)⟩
  length_le := le_rfl
  shortest _ _ _ := Nat.zero_le _
  nonzero := one_ne_zero
  const := coeff_X_zero
  degree := natDegree_X.le
  vanish h := absurd h (lt_irrefl 0)
  last h := absurd h (lt_irrefl 0)

/-- The correction of the next step when the length stays. -/
theorem keep (h : MasseyState S q c d l b) {c' : F[X]} (hloc : PolyLocator S (q + 1) c' l) :
    MasseyState S (q + 1) c' (X * d) l b where
  locator := hloc
  length_le := Nat.le_succ_of_le h.length_le
  shortest _ _ h' := h.shortest _ _ h'.of_succ
  nonzero := h.nonzero
  const := coeff_X_mul_zero d
  degree := by
    have hX := natDegree_mul_le (p := X) (q := d)
    have := h.degree
    rw [natDegree_X] at hX
    omega
  vanish hl r hr hq := by
    have hlq := h.length_le
    obtain ⟨r, rfl⟩ := Nat.exists_eq_add_of_le' (show 1 ≤ r by omega)
    rw [mul_assoc, coeff_X_mul]
    exact h.vanish hl r (by omega) (by omega)
  last hl := by
    rw [mul_assoc, coeff_X_mul]
    exact h.last hl

/-- A step without discrepancy. -/
theorem step_zero (h : MasseyState S q c d l b) (hzero : (c * S).coeff q = 0) :
    MasseyState S (q + 1) c (X * d) l b := by
  refine h.keep ⟨h.locator.const, h.locator.degree, fun r hl hr => ?_⟩
  rcases Nat.lt_succ_iff_lt_or_eq.mp hr with hlt | rfl
  · exact h.locator.vanish r hl hlt
  · exact hzero

/-- The corrected locator has the length of Massey's bound, or the old length where that is longer. -/
theorem corrected (h : MasseyState S q c d l b) {k : F} (hk : (c * S).coeff q + k * b = 0) {l' : Nat} (hl : l ≤ l')
    (hq : q + 1 ≤ l + l') : PolyLocator S (q + 1) (c + C k * d) l' where
  const := by rw [coeff_add, coeff_C_mul, h.locator.const, h.const, mul_zero, add_zero]
  degree := by
    have := h.degree
    have := h.locator.degree
    exact natDegree_add_le_of_degree_le (by omega) ((natDegree_C_mul_le k d).trans (by omega))
  vanish r hr hrq := by
    have hlpos : 0 < l := by omega
    rw [add_mul, mul_assoc, coeff_add, coeff_C_mul]
    rcases Nat.lt_succ_iff_lt_or_eq.mp hrq with hlt | rfl
    · rw [h.locator.vanish r (hl.trans hr) hlt, h.vanish hlpos r (by omega) hlt, mul_zero, add_zero]
    · rw [h.last hlpos, hk]

/-- A step whose correction fits the length. -/
theorem step_keep (h : MasseyState S q c d l b) {k : F} (hk : (c * S).coeff q + k * b = 0) (hq : q < 2 * l) :
    MasseyState S (q + 1) (c + C k * d) (X * d) l b :=
  h.keep (h.corrected hk le_rfl (by omega))

/-- A step that changes the length: the old locator becomes the next correction. -/
theorem step_change (h : MasseyState S q c d l b) {k : F} (hk : (c * S).coeff q + k * b = 0)
    (hfail : (c * S).coeff q ≠ 0) (hq : 2 * l ≤ q) :
    MasseyState S (q + 1) (c + C k * d) (X * c) (q + 1 - l) ((c * S).coeff q) where
  locator := h.corrected hk (by omega) (by omega)
  length_le := Nat.sub_le _ _
  shortest _ _ h' := by
    have := h.locator.length_bound hfail h'
    omega
  nonzero := hfail
  const := coeff_X_mul_zero c
  degree := by
    have hX := natDegree_mul_le (p := X) (q := c)
    have := h.locator.degree
    rw [natDegree_X] at hX
    omega
  vanish _ r hr hrq := by
    obtain ⟨r, rfl⟩ := Nat.exists_eq_add_of_le' (show 1 ≤ r by omega)
    rw [mul_assoc, coeff_X_mul]
    exact h.locator.vanish r (by omega) (by omega)
  last _ := by rw [mul_assoc, coeff_X_mul]

end MasseyState

end Massey

/-! ### The engine's steps (43_rs_decode.md R94) -/

/-- A doubly guarded table term of the engine's sums is the product. -/
theorem xor_tableProduct (acc a b : Byte) :
    (if a ≠ 0 ∧ b ≠ 0 then acc ^^^ exp256 ((log256 a + log256 b) % 255) else acc) = acc ^^^ product .gf256 a b := by
  by_cases hb : b = 0
  · simp [hb]
  · rw [if_congr (and_iff_left hb) rfl rfl, xor_tableTerm]
    exact congrArg (acc ^^^ product .gf256 a ·) (alpha_fieldLog (f := .gf256) rfl hb)

theorem forUp_xor (n : Nat) (g : Nat → Byte) (a : Byte) : forUp n (fun k acc => acc ^^^ g k) a = a ^^^ xorSum n g := by
  induction n with
  | zero => exact BitVec.xor_zero.symm
  | succ n ih => rw [forUp_succ, ih, xorSum_succ, BitVec.xor_assoc]

/-- The discrepancy is the sum over the whole locator, whose constant term is 1. -/
theorem discrepancy_eq_xorSum (syn : Poly) {c : Poly} (hconst : coeff c 0 = 1) (l q : Nat) :
    discrepancy syn c l q = xorSum (l + 1) fun i => product .gf256 (coeff c i) (coeff syn (q - i)) := by
  have hloop : discrepancy syn c l q =
      coeff syn q ^^^ xorSum l fun t => product .gf256 (coeff c (t + 1)) (coeff syn (q - (t + 1))) :=
    (forUp_congr _ fun t _ d => xor_tableProduct d _ _).trans (forUp_xor ..)
  rw [hloop, xorSum_succ_left, hconst]
  exact congrArg (· ^^^ _) (product_one_left _).symm

theorem coeff_polyAdd (d src : Poly) (c : Byte) (shift : Nat) {k : Nat} (hk : k < 64) :
    coeff (polyAdd d src c shift) k =
      coeff d k ^^^ if shift ≤ k then product .gf256 c (coeff src (k - shift)) else 0 := by
  by_cases hc : c = 0
  · simp [polyAdd, hc]
  have hbody : (fun (i : Nat) (d : Poly) =>
        let q := i + shift
        if q ≤ 63 ∧ coeff src i ≠ 0 then
          setCoeff d q (coeff d q ^^^ exp256 ((log256 (coeff src i) + log256 c) % 255))
        else d) =
      fun i d => setCoeff d (shift + i) (coeff d (shift + i) ^^^ product .gf256 c (coeff src i)) := by
    funext i d
    rw [Nat.add_comm shift]
    have hterm := xor_tableProduct (coeff d (i + shift)) (coeff src i) c
    rw [product_comm (f := .gf256) rfl rfl] at hterm
    by_cases hq : i + shift ≤ 63
    · by_cases hsrc : coeff src i = 0
      · simp [hsrc]
      · refine (if_pos ⟨hq, hsrc⟩).trans ?_
        rw [← hterm, if_pos ⟨hsrc, hc⟩]
    · rw [setCoeff_of_ge _ _ (by omega)]
      exact if_neg fun h => hq h.1
  have hwindow : shift ≤ k ∧ k < shift + 64 ↔ shift ≤ k := by omega
  rw [polyAdd, if_neg hc, hbody, coeff_addLoopAt (fun i => product .gf256 c (coeff src i)) d shift 64 hk,
    if_congr hwindow rfl rfl]

namespace ByteModel

variable {F : Type} [Field F] (φ : ByteModel F)

/-- The locators of the statements are the locators over the field. -/
theorem isLocator_iff (syn : Poly) (n : Nat) (c : Poly) (l : Nat) :
    IsLocator syn n c l ↔ PolyLocator (φ.poly syn) n (φ.poly c) l := by
  have hdisc {q : Nat} (hdeg : (φ.poly c).natDegree ≤ l) (hq : l ≤ q) :
      xorSum (l + 1) (fun i => product .gf256 (coeff c i) (coeff syn (q - i))) = 0 ↔
        (φ.poly c * φ.poly syn).coeff q = 0 := by
    rw [coeff_mul_eq_sum _ hdeg hq]
    simp only [coeff_poly, ← elem_product, ← elem_xorSum]
    exact (φ.elem_eq_zero_iff _).symm
  have hone : coeff c 0 = 1 ↔ (φ.poly c).coeff 0 = 1 := by
    rw [coeff_poly, ← φ.elem_one, φ.injective.eq_iff]
    rfl
  rw [IsLocator, ← natDegree_poly_le_iff φ, hone]
  exact ⟨fun ⟨hconst, hdeg, hzero⟩ => ⟨hconst, hdeg, fun q hl hq => (hdisc hdeg hl).mp (hzero q hl hq)⟩,
    fun ⟨hconst, hdeg, hzero⟩ => ⟨hconst, hdeg, fun q hl hq => (hdisc hdeg hl).mpr (hzero q hl hq)⟩⟩

theorem elem_discrepancy {syn c : Poly} {l q : Nat} (h : PolyLocator (φ.poly syn) q (φ.poly c) l) (hl : l ≤ q) :
    φ.elem (discrepancy syn c l q) = (φ.poly c * φ.poly syn).coeff q := by
  have hconst : coeff c 0 = 1 := ((φ.isLocator_iff syn q c l).mpr h).1
  rw [discrepancy_eq_xorSum _ hconst, coeff_mul_eq_sum _ h.degree hl]
  simp only [elem_xorSum, elem_product, coeff_poly]

/-- `poly_add` adds a multiple that does not run past degree 63 (41_galois_field.md R80). -/
theorem poly_polyAdd (d src : Poly) (c : Byte) {shift : Nat} (hdeg : (X ^ shift * φ.poly src).natDegree ≤ 63) :
    φ.poly (polyAdd d src c shift) = φ.poly d + C (φ.elem c) * (X ^ shift * φ.poly src) := by
  ext k
  rw [coeff_add, coeff_C_mul, coeff_poly, coeff_poly]
  by_cases hk : k < 64
  · rw [coeff_polyAdd _ _ _ _ hk, φ.elem_xor, coeff_X_pow_mul', coeff_poly]
    split_ifs
    · rw [φ.elem_product]
    · rw [mul_zero]
      exact congrArg _ φ.elem_zero
  · rw [coeff_eq_zero_of_natDegree_lt (by omega), coeff_of_ge _ (by omega), coeff_of_ge _ (by omega), mul_zero,
      add_zero]

/-- The engine's working values before step `q` are those of the iteration over the field. -/
def BmInvariant (syn : Poly) (q : Nat) (st : BmState) : Prop :=
  MasseyState (φ.poly syn) q (φ.poly st.c) (X ^ st.m * φ.poly st.bPoly) st.l (φ.elem st.b)

/-- The multiplier cancels the discrepancy. -/
theorem elem_lutDiv_cancels {d b : Byte} (hd : d ≠ 0) (hb : b ≠ 0) :
    φ.elem d + φ.elem (lutDiv d b) * φ.elem b = 0 := by
  rw [← φ.elem_product, product_lutDiv hd hb, ← φ.elem_xor, BitVec.xor_self, φ.elem_zero]

theorem bmInvariant_bmStep {syn : Poly} {q : Nat} {st : BmState} (hq : q < 63) (h : φ.BmInvariant syn q st) :
    φ.BmInvariant syn (q + 1) (bmStep syn q st) := by
  have hdisc := φ.elem_discrepancy h.locator h.length_le
  have hshift : X ^ (st.m + 1) * φ.poly st.bPoly = X * (X ^ st.m * φ.poly st.bPoly) := by rw [pow_succ', mul_assoc]
  have hadd (k : Byte) := φ.poly_polyAdd st.c st.bPoly k (shift := st.m) (by have := h.degree; omega)
  have hb : st.b ≠ 0 := fun hb => h.nonzero ((φ.elem_eq_zero_iff _).mpr hb)
  unfold bmStep BmInvariant
  dsimp only
  split_ifs with hzero hlen
  · rw [hshift]
    exact h.step_zero (by rw [← hdisc, hzero]; exact φ.elem_zero)
  · have hfail : (φ.poly st.c * φ.poly syn).coeff q ≠ 0 := by
      rw [← hdisc]
      exact fun h0 => hzero ((φ.elem_eq_zero_iff _).mp h0)
    rw [hadd, pow_one, hdisc]
    exact h.step_change (by rw [← hdisc]; exact φ.elem_lutDiv_cancels hzero hb) hfail hlen
  · rw [hadd, hshift]
    exact h.step_keep (by rw [← hdisc]; exact φ.elem_lutDiv_cancels hzero hb) (by omega)

theorem bmInvariant_start (syn : Poly) :
    φ.BmInvariant syn 0 { c := onePoly, bPoly := onePoly, l := 0, m := 1, b := 1 } := by
  have hstart := MasseyState.start (S := φ.poly syn)
  rw [← φ.poly_onePoly, ← φ.elem_one] at hstart
  unfold BmInvariant
  rwa [pow_one, φ.poly_onePoly, mul_one, ← φ.poly_onePoly]

/-- RS_BM's locator is a shortest one, among all the field's polynomials. -/
theorem berlekampMassey_shortest (syn : Poly) {n : Nat} (hn : n ≤ 63) :
    PolyLocator (φ.poly syn) n (φ.poly (berlekampMassey syn n).1) (berlekampMassey syn n).2 ∧
      ∀ c' l', PolyLocator (φ.poly syn) n c' l' → (berlekampMassey syn n).2 ≤ l' := by
  have h : φ.BmInvariant syn n _ := forUp_invariant (φ.BmInvariant syn) (φ.bmInvariant_start syn) fun q hq _ =>
    φ.bmInvariant_bmStep (hq.trans_le hn)
  exact ⟨h.locator, h.shortest⟩

end ByteModel

/-! ### RS_BM (43_rs_decode.md R98) -/

theorem isLocator_berlekampMassey (syn : Poly) {n : Nat} (hn : n ≤ 63) :
    IsLocator syn n (berlekampMassey syn n).1 (berlekampMassey syn n).2 := by
  obtain ⟨F, _, ⟨φ⟩⟩ := exists_byteModel
  exact (φ.isLocator_iff ..).mpr (φ.berlekampMassey_shortest syn hn).1

theorem berlekampMassey_le_of_isLocator (syn : Poly) {n : Nat} (hn : n ≤ 63) {c : Poly} {l : Nat}
    (h : IsLocator syn n c l) : (berlekampMassey syn n).2 ≤ l := by
  obtain ⟨F, _, ⟨φ⟩⟩ := exists_byteModel
  exact (φ.berlekampMassey_shortest syn hn).2 _ _ ((φ.isLocator_iff ..).mp h)

/-- On all-zero syndromes the polynomial 1 of length 0 is a locator, so the shortest one is that. -/
theorem berlekampMassey_of_zero {syn : Poly} {n : Nat} (hn : n ≤ 63) (hzero : ∀ i < n, coeff syn i = 0) :
    berlekampMassey syn n = (onePoly, 0) := by
  have hone : IsLocator syn n onePoly 0 := by
    refine ⟨coeff_onePoly 0, fun i hi => (coeff_onePoly i).trans (if_neg hi.ne'), fun q _ hq => ?_⟩
    exact xorSum_eq_zero fun i _ => by rw [hzero _ (by omega)]; exact product_zero_right ..
  have hlength : (berlekampMassey syn n).2 = 0 := Nat.le_zero.mp (berlekampMassey_le_of_isLocator syn hn hone)
  obtain ⟨hconst, hdeg, -⟩ := isLocator_berlekampMassey syn hn
  refine Prod.ext (poly_ext fun i _ => ?_) hlength
  rw [coeff_onePoly]
  split_ifs with hi
  · rw [hi, hconst]
  · exact hdeg i (by omega)

/-- RS_BM's completion behind its check. -/
theorem exec_rsBm {s : State} (h : NparOk s.cfg) : exec .rsBm s =
    .next (complete .ok ((bmEffect (effectiveNpar s.cfg) s.syn).apply s)) := by
  rw [exec_eq_effect, effectOf, (nparOk_iff s.cfg).mp h]
  rfl

/-- Settles O53: the loop keeps a shortest locator, and on zero syndromes the polynomial 1 is the only one of length
0. -/
theorem rsBmLocatorGeneratesTheSyndromes : Obligations.RsBmLocatorGeneratesTheSyndromes := by
  intro s hnpar
  have hn := hnpar.2
  refine ⟨(berlekampMassey s.syn (effectiveNpar s.cfg)).1, (berlekampMassey s.syn (effectiveNpar s.cfg)).2,
    isLocator_berlekampMassey s.syn hn, berlekampMassey_length_le s.syn _,
    fun _ _ => berlekampMassey_le_of_isLocator s.syn hn, fun hzero => ?_, exec_rsBm hnpar⟩
  rw [berlekampMassey_of_zero hn hzero]
  exact ⟨rfl, coeff_onePoly⟩

end Sys2Proof.Proofs
end

section
/-! SUPPORT and proofs. RS_DEC as its five steps: on a clean block the correcting steps write what the early exit
writes, so one description serves both paths (43_rs_decode.md R101). -/

namespace Sys2Proof.Proofs

open Sys2Proof.Machine Sys2Proof.Claims

/-! ### The syndromes of a block and of a codeword -/

theorem anyNonzero_syndromes_eq_false_iff (blk : Poly) (nb : Nat) {n : Nat} (hn : n ≤ 64) :
    anyNonzero (syndromes blk nb n) n = false ↔ IsCodeword blk nb n := by
  rw [← Bool.not_eq_true, anyNonzero_iff]
  push Not
  exact forall₂_congr fun i hi => by rw [coeff_syndromes blk nb hn, if_pos hi]

theorem syndromes_of_isCodeword {blk : Poly} {nb n : Nat} (hn : n ≤ 64) (h : IsCodeword blk nb n) :
    syndromes blk nb n = zeroPoly :=
  poly_ext fun i _ => (coeff_syndromes_of_isCodeword hn h i).trans (coeff_zeroPoly i).symm

/-! ### The steps on all-zero syndromes -/

theorem derivative_onePoly : derivative onePoly = zeroPoly :=
  poly_ext fun i _ => by simp [coeff_derivative, coeff_onePoly]

theorem evaluator_zeroPoly (sigma : Poly) {n : Nat} (hn : n ≤ 64) : evaluator sigma zeroPoly n = zeroPoly := by
  refine poly_ext fun k _ => ?_
  rw [coeff_evaluator _ _ hn, xorSum_eq_zero fun i _ => by rw [coeff_zeroPoly]; exact product_zero_right ..]
  simp

theorem polyEval_onePoly (x : Byte) : polyEval onePoly x = 1 := by
  rw [polyEval_eq_polyValue, polyValue, xorSum_succ_left, xorSum_eq_zero fun k _ => by simp [coeff_onePoly]]
  exact BitVec.xor_zero.trans (product_one_right ..)

/-- The locator 1 has no roots, so nothing is corrected. -/
theorem chienForney_onePoly (sderiv omega blk : Poly) (nb : Nat) : chienForney onePoly sderiv omega blk nb = (blk, 0) :=
  forUp_frame id fun i _ (b, cnt) => by simp [polyEval_onePoly]

/-! ### RS_DEC (43_rs_decode.md R101) -/

/-- RS_CHIEN's completion behind its check. -/
theorem exec_rsChien {s : State} (h : BlockOk s.cfg) : exec .rsChien s = .next (complete .ok
    ((chienEffect (blockLength s.cfg) (effectiveNpar s.cfg) s.sigma s.sderiv s.omega s.blk).apply s)) := by
  rw [exec_eq_effect, effectOf, (blockOk_iff s.cfg).mp h]
  rfl

/-- The block RS_DEC leaves. -/
def correctedBlock (nb n : Nat) (blk : Poly) : Poly :=
  let sigma := (berlekampMassey (syndromes blk nb n) n).1
  (chienForney sigma (derivative sigma) (evaluator sigma (syndromes blk nb n) n) blk nb).1

theorem correctedBlock_of_isCodeword {blk : Poly} {nb n : Nat} (hn : n ≤ 63) (h : IsCodeword blk nb n) :
    correctedBlock nb n blk = blk := by
  rw [correctedBlock, syndromes_of_isCodeword (by omega) h,
    berlekampMassey_of_zero hn fun i _ => coeff_zeroPoly i, chienForney_onePoly]

/-- The early exit writes what the correcting steps would write on the clean block. -/
theorem cleanEffect_apply {s : State} {nb n : Nat} (hn : n ≤ 63) (h : IsCodeword s.blk nb n) :
    (cleanEffect nb n s.blk).apply s = (correctEffect nb n s.blk).apply s := by
  have hsyn := syndromes_of_isCodeword (by omega : n ≤ 64) h
  have hbm := berlekampMassey_of_zero hn fun i _ => coeff_zeroPoly i
  have hom := evaluator_zeroPoly onePoly (by omega : n ≤ 64)
  simp [Effect.apply, cleanEffect, correctEffect, synEffect, omegaEffect, bmEffect, chienEffect, hsyn, hbm, hom,
    derivative_onePoly, chienForney_onePoly]

/-- RS_DEC's completion behind its check, on both paths. -/
theorem exec_rsDec {s : State} (h : BlockOk s.cfg) :
    let nb := blockLength s.cfg
    let n := effectiveNpar s.cfg
    exec .rsDec s = .next (complete (if anyNonzero (syndromes (correctedBlock nb n s.blk) nb n) n then
      .rsUncorrectable else .ok) ((correctEffect nb n s.blk).apply s)) := by
  intro nb n
  have hn : n ≤ 63 := h.1.2
  have hdec : exec .rsDec s = .next (complete (decEffect nb n s.blk).1 ((decEffect nb n s.blk).2.apply s)) := by
    rw [exec_eq_effect, effectOf, (blockOk_iff s.cfg).mp h]
    rfl
  rw [hdec, decEffect]
  cases hnz : anyNonzero (syndromes s.blk nb n) n with
  | true => rfl
  | false =>
    have hcode := (anyNonzero_syndromes_eq_false_iff s.blk nb (by omega)).mp hnz
    rw [correctedBlock_of_isCodeword hn hcode, hnz, ← cleanEffect_apply hn hcode]
    rfl

/-- Settles O56: each command makes its step's writes, and RS_DEC makes all of them. -/
theorem rsDecIsItsStepsInTurn : Obligations.RsDecIsItsStepsInTurn := by
  intro s hblock
  refine ⟨_, _, _, _, _, exec_rsSyn hblock, exec_rsBm hblock.1, exec_rsOmega hblock.1, exec_rsChien hblock,
    exec_rsSyn hblock, ?_⟩
  rw [exec_rsDec hblock]
  rfl

/-- Settles O57: RS_DEC's code is the re-check's answer on the block it leaves. -/
theorem rsDecSucceedsExactlyOnCodewords : Obligations.RsDecSucceedsExactlyOnCodewords := by
  intro s hblock
  have hn : effectiveNpar s.cfg ≤ 63 := hblock.1.2
  have hcheck := anyNonzero_syndromes_eq_false_iff
    (correctedBlock (blockLength s.cfg) (effectiveNpar s.cfg) s.blk) (blockLength s.cfg) (hn.trans (by decide))
  refine ⟨_, exec_rsDec hblock, fun hcode => ?_, fun hcode => ?_, fun hcode => ?_⟩
  · have hnz := hcheck.mpr hcode
    exact ⟨by rw [hnz]; rfl, hnz⟩
  · have hnz := Bool.eq_true_of_not_eq_false (mt hcheck.mp hcode)
    exact ⟨by rw [hnz]; rfl, hnz⟩
  · rw [← cleanEffect_apply hn hcode]
    exact ⟨rfl, rfl, rfl⟩

end Sys2Proof.Proofs
end

section
/-! SUPPORT. Power sums of few errors over an arbitrary field: a short locator of them has the inverse places as its
roots, and Forney's formula gives the errors (43_rs_decode.md R95, R96, R102). -/

namespace Sys2Proof.Proofs

open Sys2Proof.Machine Sys2Proof.Claims Polynomial

/-! ### Power sums over a field -/

section PowerSums

variable {F : Type} [Field F]

/-- The scaled value of a polynomial at the inverse of `x`. -/
theorem sum_coeff_mul_pow_sub {c : F[X]} {q : Nat} (hdeg : c.natDegree ≤ q) {x : F} (hx : x ≠ 0) :
    ∑ i ∈ Finset.range (q + 1), c.coeff i * x ^ (q - i) = x ^ q * c.eval x⁻¹ := by
  rw [eval_eq_sum_range' (Nat.lt_succ_of_le hdeg), Finset.mul_sum]
  refine Finset.sum_congr rfl fun i hi => ?_
  rw [pow_sub₀ x hx (Nat.lt_succ_iff.mp (Finset.mem_range.mp hi)), inv_pow]
  ring

/-- `Q` is the quotient of `c` by `1 - x·X`, whose coefficients are the partial sums of `c` at the inverse of `x`. -/
structure LocatorQuotient (c : F[X]) (x : F) (Q : F[X]) : Prop where
  factor : c = (1 - C x * X) * Q
  coeff_eq : ∀ k, Q.coeff k = ∑ i ∈ Finset.range (k + 1), c.coeff i * x ^ (k - i)
  coeff_eq_zero : ∀ k, c.natDegree ≤ k → Q.coeff k = 0

/-- A factor `1 - x·X` leaves the partial sums, by Horner's rule. -/
theorem coeff_of_factor {c Q : F[X]} {x : F} (h : c = (1 - C x * X) * Q) (k : Nat) :
    Q.coeff k = ∑ i ∈ Finset.range (k + 1), c.coeff i * x ^ (k - i) := by
  induction k with
  | zero => simp [h, mul_coeff_zero]
  | succ k ih =>
    have hlast : c.coeff (k + 1) = Q.coeff (k + 1) - x * Q.coeff k := by
      rw [h, sub_mul, one_mul, mul_assoc, coeff_sub, coeff_C_mul, coeff_X_mul]
    have hshift : ∑ i ∈ Finset.range (k + 1), c.coeff i * x ^ (k + 1 - i) = x * Q.coeff k := by
      rw [ih, Finset.mul_sum]
      refine Finset.sum_congr rfl fun i hi => ?_
      rw [Nat.succ_sub (Nat.lt_succ_iff.mp (Finset.mem_range.mp hi)), pow_succ]
      ring
    rw [Finset.sum_range_succ, hshift, hlast, Nat.sub_self]
    ring

theorem exists_locatorQuotient {c : F[X]} {x : F} (hx : x ≠ 0) (hroot : c.eval x⁻¹ = 0) :
    ∃ Q, LocatorQuotient c x Q := by
  obtain ⟨W, hW⟩ := dvd_iff_isRoot.mpr hroot
  have hfactor : (X - C x⁻¹ : F[X]) = (1 - C x * X) * -C x⁻¹ := by
    have hunit : (C x * C x⁻¹ : F[X]) = 1 := by rw [← C_mul, mul_inv_cancel₀ hx, C_1]
    linear_combination -X * hunit
  have hQ : c = (1 - C x * X) * (-C x⁻¹ * W) := by rw [← mul_assoc, ← hfactor, hW]
  exact ⟨_, hQ, coeff_of_factor hQ, fun k hk => by
    rw [coeff_of_factor hQ, sum_coeff_mul_pow_sub hk hx, hroot, mul_zero]⟩

namespace LocatorQuotient

variable {c Q : F[X]} {x : F}

theorem ne_zero (h : LocatorQuotient c x Q) (hc : c ≠ 0) : Q ≠ 0 := by
  rintro rfl
  exact hc (h.factor.trans (mul_zero _))

theorem natDegree_lt (h : LocatorQuotient c x Q) {l : Nat} (hl : 0 < l) (hdeg : c.natDegree ≤ l) : Q.natDegree < l := by
  have hle : Q.natDegree ≤ l - 1 :=
    natDegree_le_iff_coeff_eq_zero.mpr fun k hk => h.coeff_eq_zero k (by omega)
  omega

/-- At another root of `c` the quotient vanishes. -/
theorem eval_eq_zero (h : LocatorQuotient c x Q) {x' : F} (hroot : c.eval x'⁻¹ = 0) (hne : x ≠ x') :
    Q.eval x'⁻¹ = 0 := by
  rw [h.factor] at hroot
  simp only [eval_mul, eval_sub, eval_one, eval_C, eval_X] at hroot
  refine (mul_eq_zero.mp hroot).resolve_left fun hfactor => hne ?_
  exact eq_of_mul_inv_eq_one (sub_eq_zero.mp hfactor).symm

/-- At its own root the derivative of `c` is the quotient times `-x`. -/
theorem eval_derivative (h : LocatorQuotient c x Q) (hx : x ≠ 0) :
    c.derivative.eval x⁻¹ = -(x * Q.eval x⁻¹) := by
  rw [h.factor]
  simp [derivative_mul, hx]

end LocatorQuotient

/-- A nonzero polynomial that vanishes at the inverses of distinct places has at least their number as its degree. -/
theorem card_le_natDegree {E : Finset Nat} {x : Nat → F} (hinj : Set.InjOn x E) {p : F[X]} (hp : p ≠ 0)
    (hroots : ∀ j ∈ E, p.eval (x j)⁻¹ = 0) : E.card ≤ p.natDegree := by
  by_contra hlt
  refine hp (eq_zero_of_natDegree_lt_card_of_eval_eq_zero p (f := fun j : E => (x j)⁻¹) (fun i j hij => ?_)
    (fun j => hroots j j.2) ?_)
  · exact Subtype.ext (hinj i.2 j.2 (inv_injective hij))
  · rw [Fintype.card_coe]
    omega

/-- Weights on distinct places whose first power sums are 0 are all 0 (by Lagrange's basis). -/
theorem eq_zero_of_powerSums {E : Finset Nat} {x a : Nat → F} (hinj : Set.InjOn x E)
    (hsum : ∀ t < E.card, ∑ j ∈ E, a j * x j ^ t = 0) {k : Nat} (hk : k ∈ E) : a k = 0 := by
  have hpos : 0 < E.card := Finset.card_pos.mpr ⟨k, hk⟩
  have hdeg : (Lagrange.basis E x k).natDegree < E.card := by
    rw [Lagrange.natDegree_basis hinj hk]
    exact Nat.sub_lt hpos one_pos
  calc a k = ∑ j ∈ E, a j * (Lagrange.basis E x k).eval (x j) := by
        rw [Finset.sum_eq_single_of_mem k hk fun j hj hjk => by rw [Lagrange.eval_basis_of_ne hjk.symm hj, mul_zero],
          Lagrange.eval_basis_self hinj hk, mul_one]
    _ = ∑ t ∈ Finset.range E.card, (Lagrange.basis E x k).coeff t * ∑ j ∈ E, a j * x j ^ t := by
        simp only [eval_eq_sum_range' hdeg, Finset.mul_sum]
        rw [Finset.sum_comm]
        exact Finset.sum_congr rfl fun t _ => Finset.sum_congr rfl fun j _ => by ring
    _ = 0 := Finset.sum_eq_zero fun t ht => by rw [hsum t (Finset.mem_range.mp ht), mul_zero]

/-- The first `n` coefficients of `S` are the power sums of the errors `y j` at the places `x j`. -/
structure ErrorPattern (E : Finset Nat) (x y : Nat → F) (S : F[X]) (n : Nat) : Prop where
  injOn : Set.InjOn x E
  place_ne_zero : ∀ j ∈ E, x j ≠ 0
  value_ne_zero : ∀ j ∈ E, y j ≠ 0
  coeff_eq : ∀ q < n, S.coeff q = ∑ j ∈ E, y j * x j ^ q

namespace ErrorPattern

variable {E : Finset Nat} {x y : Nat → F} {S c : F[X]} {n l : Nat}

/-- The shifted power sums are those of the scaled errors. -/
theorem shifted (h : ErrorPattern E x y S n) : ErrorPattern E x (fun j => y j * x j) S.divX (n - 1) where
  injOn := h.injOn
  place_ne_zero := h.place_ne_zero
  value_ne_zero j hj := mul_ne_zero (h.value_ne_zero j hj) (h.place_ne_zero j hj)
  coeff_eq q hq := by
    rw [coeff_divX, h.coeff_eq _ (by omega)]
    exact Finset.sum_congr rfl fun j _ => by ring

/-- A coefficient of `c·S`, error by error. -/
theorem coeff_mul_eq (h : ErrorPattern E x y S n) (c : F[X]) {q : Nat} (hq : q < n) :
    (c * S).coeff q = ∑ j ∈ E, y j * ∑ i ∈ Finset.range (q + 1), c.coeff i * x j ^ (q - i) := by
  rw [coeff_mul, Finset.Nat.sum_antidiagonal_eq_sum_range_succ_mk]
  simp only [Finset.mul_sum]
  rw [Finset.sum_comm]
  refine Finset.sum_congr rfl fun i _ => ?_
  rw [h.coeff_eq _ (by omega), Finset.mul_sum]
  exact Finset.sum_congr rfl fun j _ => by ring

/-- From the degree of `c` on, a coefficient of `c·S` is a power sum of the values of `c`. -/
theorem coeff_mul_of_natDegree_le (h : ErrorPattern E x y S n) {q : Nat} (hdeg : c.natDegree ≤ q) (hq : q < n) :
    (c * S).coeff q = ∑ j ∈ E, y j * (x j ^ q * c.eval (x j)⁻¹) := by
  rw [h.coeff_mul_eq c hq]
  exact Finset.sum_congr rfl fun j hj => by rw [sum_coeff_mul_pow_sub hdeg (h.place_ne_zero j hj)]

theorem natDegree_prod_le_card (E : Finset Nat) (x : Nat → F) :
    (∏ j ∈ E, (1 - C (x j) * X)).natDegree ≤ E.card := by
  have hfactor : ∀ j ∈ E, (1 - C (x j) * X : F[X]).natDegree ≤ 1 := fun j _ => by compute_degree
  exact (natDegree_prod_le E _).trans (by simpa using Finset.sum_le_card_nsmul E _ 1 hfactor)

/-- The product with a factor for each error is a locator. -/
theorem polyLocator_prod (h : ErrorPattern E x y S n) : PolyLocator S n (∏ j ∈ E, (1 - C (x j) * X)) E.card where
  const := by simp [coeff_zero_eq_eval_zero, eval_prod]
  degree := natDegree_prod_le_card E x
  vanish q hl hq := by
    rw [h.coeff_mul_of_natDegree_le ((natDegree_prod_le_card E x).trans hl) hq]
    refine Finset.sum_eq_zero fun j hj => ?_
    rw [eval_prod, Finset.prod_eq_zero hj (by simp [h.place_ne_zero j hj]), mul_zero, mul_zero]

/-- With enough syndromes every locator has the inverse places as roots. -/
theorem eval_eq_zero (h : ErrorPattern E x y S n) (hc : PolyLocator S n c l) (hlen : E.card + l ≤ n) {j : Nat}
    (hj : j ∈ E) : c.eval (x j)⁻¹ = 0 := by
  have hsum : ∀ t < E.card, ∑ j ∈ E, (y j * x j ^ l * c.eval (x j)⁻¹) * x j ^ t = 0 := fun t ht => by
    rw [← hc.vanish (l + t) (Nat.le_add_right l t) (by omega),
      h.coeff_mul_of_natDegree_le (hc.degree.trans (Nat.le_add_right l t)) (by omega)]
    exact Finset.sum_congr rfl fun j _ => by ring
  have hweight := eq_zero_of_powerSums h.injOn hsum hj
  exact (mul_eq_zero.mp hweight).resolve_left
    (mul_ne_zero (h.value_ne_zero j hj) (pow_ne_zero l (h.place_ne_zero j hj)))

/-- The places of the errors are the only ones whose inverse is a root of a locator this short. -/
theorem mem_of_eval_eq_zero (h : ErrorPattern E x y S n) (hc : PolyLocator S n c l) (hle : l ≤ E.card)
    (hhalf : 2 * E.card ≤ n) {i : Nat} (hinj : Set.InjOn x (insert i E : Finset Nat)) (hroot : c.eval (x i)⁻¹ = 0) :
    i ∈ E := by
  by_contra hi
  have hcard := card_le_natDegree hinj hc.ne_zero fun j hj => by
    rcases Finset.mem_insert.mp hj with rfl | hj
    · exact hroot
    · exact h.eval_eq_zero hc (by omega) hj
  rw [Finset.card_insert_of_notMem hi] at hcard
  have := hc.degree
  omega

/-- A locator no longer than the number of errors has exactly that length. -/
theorem length_eq (h : ErrorPattern E x y S n) (hc : PolyLocator S n c l) (hle : l ≤ E.card) (hhalf : 2 * E.card ≤ n) :
    l = E.card := by
  have hcard := card_le_natDegree h.injOn hc.ne_zero fun j hj => h.eval_eq_zero hc (by omega) hj
  have := hc.degree
  omega

/-- The evaluator is the sum of the quotients, each with its error and place (43_rs_decode.md R95). -/
theorem evaluator_eq_sum (h : ErrorPattern E x y S n) (hdeg : c.natDegree < n) {Q : Nat → F[X]}
    (hQ : ∀ j ∈ E, LocatorQuotient c (x j) (Q j)) {O : F[X]}
    (hO : ∀ k, O.coeff k = if k + 1 < n then (c * S.divX).coeff k else 0) :
    O = ∑ j ∈ E, C (y j * x j) * Q j := by
  ext k
  rw [hO, finsetSum_coeff]
  simp only [coeff_C_mul]
  split_ifs with hk
  · rw [h.shifted.coeff_mul_eq c (by omega)]
    exact Finset.sum_congr rfl fun j hj => by rw [(hQ j hj).coeff_eq]
  · exact (Finset.sum_eq_zero fun j hj => by rw [(hQ j hj).coeff_eq_zero k (by omega), mul_zero]).symm

/-- Forney's formula (43_rs_decode.md R96): at an error's inverse place the evaluator is the derivative times the error,
up to sign, and the derivative is not 0. -/
theorem forney (h : ErrorPattern E x y S n) (hc : PolyLocator S n c l) (hle : l ≤ E.card) (hhalf : 2 * E.card ≤ n)
    {O : F[X]} (hO : ∀ k, O.coeff k = if k + 1 < n then (c * S.divX).coeff k else 0) {p : Nat} (hp : p ∈ E) :
    O.eval (x p)⁻¹ = -(y p * c.derivative.eval (x p)⁻¹) ∧ c.derivative.eval (x p)⁻¹ ≠ 0 := by
  have hroot {j : Nat} (hj : j ∈ E) : c.eval (x j)⁻¹ = 0 := h.eval_eq_zero hc (by omega) hj
  have hpos : 0 < E.card := Finset.card_pos.mpr ⟨p, hp⟩
  have hdeg := hc.degree
  choose! Q hQ using fun j (hj : j ∈ E) => exists_locatorQuotient (h.place_ne_zero j hj) (hroot hj)
  have hother {i j : Nat} (hi : i ∈ E) (hj : j ∈ E) (hij : i ≠ j) : (Q i).eval (x j)⁻¹ = 0 :=
    (hQ i hi).eval_eq_zero (hroot hj) fun hxx => hij (h.injOn hi hj hxx)
  rw [(hQ p hp).eval_derivative (h.place_ne_zero p hp)]
  constructor
  · have hsingle : O.eval (x p)⁻¹ = y p * x p * (Q p).eval (x p)⁻¹ := by
      rw [h.evaluator_eq_sum (by omega) hQ hO, eval_finsetSum, Finset.sum_eq_single_of_mem p hp, eval_mul, eval_C]
      exact fun j hj hjp => by rw [eval_mul, hother hj hp hjp, mul_zero]
    rw [hsingle]
    ring
  · refine neg_ne_zero.mpr (mul_ne_zero (h.place_ne_zero p hp) fun hzero => ?_)
    have hcard := card_le_natDegree h.injOn ((hQ p hp).ne_zero hc.ne_zero) fun j hj => by
      rcases eq_or_ne p j with rfl | hpj
      · exact hzero
      · exact hother hp hj hpj
    have := (hQ p hp).natDegree_lt hpos (hdeg.trans hle)
    omega

end ErrorPattern

end PowerSums
end Sys2Proof.Proofs
end

section
/-! SUPPORT and proofs. What decoding guarantees: the syndromes of a changed codeword are the power sums of its errors,
so RS_DEC's locator has their places as roots and its magnitudes are the errors (43_rs_decode.md R102). -/

namespace Sys2Proof.Proofs

open Sys2Proof.Machine Sys2Proof.Claims Polynomial

/-! ### Places and errors of a block -/

theorem alpha_inj {i j : Nat} (hi : i < 255) (hj : j < 255) (h : alpha .gf256 i = alpha .gf256 j) : i = j := by
  rw [← fieldExp_eq_alpha (f := .gf256) hi.le, ← fieldExp_eq_alpha (f := .gf256) hj.le] at h
  rw [← fieldLog_fieldExp (f := .gf256) hi, h, fieldLog_fieldExp (f := .gf256) hj]

/-- The difference of two blocks at the byte of degree `i`. -/
def errorAt (received blk : Poly) (nb i : Nat) : Byte := coeff received (nb - 1 - i) ^^^ coeff blk (nb - 1 - i)

/-- The degrees at which two blocks differ. -/
def errorDegrees (received blk : Poly) (nb : Nat) : Finset Nat :=
  (Finset.range nb).filter fun i => errorAt received blk nb i ≠ 0

theorem mem_errorDegrees {received blk : Poly} {nb i : Nat} :
    i ∈ errorDegrees received blk nb ↔ i < nb ∧ errorAt received blk nb i ≠ 0 := by
  rw [errorDegrees, Finset.mem_filter, Finset.mem_range]

theorem errorAt_ne_zero_iff (received blk : Poly) (nb i : Nat) :
    errorAt received blk nb i ≠ 0 ↔ coeff received (nb - 1 - i) ≠ coeff blk (nb - 1 - i) :=
  not_congr BitVec.xor_eq_zero_iff

theorem countP_range_eq_card (p : Nat → Bool) (n : Nat) :
    (List.range n).countP p = ((Finset.range n).filter fun i => p i = true).card := by
  simp [List.countP_eq_length_filter, Finset.card_def, Finset.filter_val, Finset.range_val, Multiset.range]

/-- Counting the changed bytes from the end of the block counts them. -/
theorem card_errorDegrees (received blk : Poly) (nb : Nat) :
    (errorDegrees received blk nb).card = (List.range nb).countP fun j => coeff received j != coeff blk j := by
  rw [countP_range_eq_card, errorDegrees, Finset.card_filter, Finset.card_filter]
  refine Eq.trans (Finset.sum_congr rfl fun i _ => ?_)
    (Finset.sum_range_reflect (fun j => if (coeff received j != coeff blk j) = true then 1 else 0) nb)
  rw [if_congr ((errorAt_ne_zero_iff ..).trans bne_iff_ne.symm) rfl rfl]

/-- The value at a power of α of a block that differs from a codeword is that of the difference. -/
theorem blockValue_eq_errors {received blk : Poly} {nb n q : Nat} (hcode : IsCodeword blk nb n) (hq : q < n) :
    blockValue received nb (alpha .gf256 q) =
      xorSum nb fun i => product .gf256 (errorAt received blk nb i) (alpha .gf256 (q * i)) := by
  have hzero : blockValue received nb (alpha .gf256 q) =
      blockValue received nb (alpha .gf256 q) ^^^ blockValue blk nb (alpha .gf256 q) := by
    rw [hcode q hq]
    exact BitVec.xor_zero.symm
  rw [hzero, blockValue, blockValue, ← xorSum_xor]
  exact xorSum_congr fun i _ => by rw [← product_xor_left, power_alpha]; rfl

namespace ByteModel

variable {F : Type} [Field F] (φ : ByteModel F)

theorem elem_alpha_mul (i q : Nat) : φ.elem (alpha .gf256 (q * i)) = φ.elem (alpha .gf256 i) ^ q := by
  rw [Nat.mul_comm, ← power_alpha, elem_power]

theorem elem_alpha_ne_zero (i : Nat) : φ.elem (alpha .gf256 i) ≠ 0 :=
  fun h => alpha_ne_zero .gf256 i ((φ.elem_eq_zero_iff _).mp h)

theorem elem_positionInverse {i : Nat} (hi : i ≤ 255) : φ.elem (positionInverse i) = (φ.elem (alpha .gf256 i))⁻¹ := by
  refine eq_inv_of_mul_eq_one_left ?_
  rw [positionInverse_eq_alpha, ← φ.elem_product, product_alpha_alpha, Nat.sub_add_cancel hi, ← φ.elem_one]
  exact congrArg φ.elem (alpha_fieldOrder .gf256)

theorem places_injOn {E : Finset Nat} (hE : ∀ i ∈ E, i < 255) : Set.InjOn (fun i => φ.elem (alpha .gf256 i)) E :=
  fun i hi j hj h => alpha_inj (hE i hi) (hE j hj) (φ.injective h)

/-- The syndromes of a changed codeword are the power sums of its errors. -/
theorem errorPattern_syndromes {received blk : Poly} {nb n : Nat} (hnb : nb ≤ 64) (hn : n ≤ 63)
    (hcode : IsCodeword blk nb n) :
    ErrorPattern (errorDegrees received blk nb) (fun i => φ.elem (alpha .gf256 i))
      (fun i => φ.elem (errorAt received blk nb i)) (φ.poly (syndromes received nb n)) n where
  injOn := φ.places_injOn fun i hi => by have := (mem_errorDegrees.mp hi).1; omega
  place_ne_zero i _ := φ.elem_alpha_ne_zero i
  value_ne_zero i hi := fun h => (mem_errorDegrees.mp hi).2 ((φ.elem_eq_zero_iff _).mp h)
  coeff_eq q hq := by
    rw [coeff_poly, coeff_syndromes _ _ (by omega), if_pos hq, blockValue_eq_errors hcode hq, elem_xorSum]
    simp only [elem_product, elem_alpha_mul]
    refine (Finset.sum_filter_of_ne (p := fun i => errorAt received blk nb i ≠ 0) fun i _ hne hzero => hne ?_).symm
    rw [(φ.elem_eq_zero_iff _).mpr hzero, zero_mul]

/-- OMEGA holds the truncated product of SIGMA and the shifted syndromes. -/
theorem coeff_poly_evaluator (sigma syn : Poly) {n : Nat} (hn : n ≤ 64) (k : Nat) :
    (φ.poly (evaluator sigma syn n)).coeff k =
      if k + 1 < n then (φ.poly sigma * (φ.poly syn).divX).coeff k else 0 := by
  rw [coeff_poly, coeff_evaluator sigma syn hn]
  split_ifs
  · rw [coeff_mul, Finset.Nat.sum_antidiagonal_eq_sum_range_succ_mk, elem_xorSum]
    exact Finset.sum_congr rfl fun i _ => by rw [elem_product, coeff_divX, coeff_poly, coeff_poly]
  · exact φ.elem_zero

theorem polyEval_eq_zero_iff (p : Poly) {i : Nat} (hi : i ≤ 255) :
    polyEval p (positionInverse i) = 0 ↔ (φ.poly p).eval (φ.elem (alpha .gf256 i))⁻¹ = 0 := by
  rw [polyEval_eq_polyValue, ← φ.elem_positionInverse hi, ← elem_polyValue, elem_eq_zero_iff]
  rfl

theorem elem_polyEval (p : Poly) {i : Nat} (hi : i ≤ 255) :
    φ.elem (polyEval p (positionInverse i)) = (φ.poly p).eval (φ.elem (alpha .gf256 i))⁻¹ := by
  rw [polyEval_eq_polyValue, ← φ.elem_positionInverse hi, ← elem_polyValue]

end ByteModel

/-! ### RS_DEC's locator and magnitudes on a changed codeword -/

section Decoding

variable {received blk : Poly} {nb n : Nat} (hnb : nb ≤ 64) (hn : n ≤ 63) (hcode : IsCodeword blk nb n)
  (hhalf : 2 * (errorDegrees received blk nb).card ≤ n)

include hnb hn hcode hhalf

/-- The locator's length is the number of errors. -/
theorem berlekampMassey_length_eq :
    (berlekampMassey (syndromes received nb n) n).2 = (errorDegrees received blk nb).card := by
  obtain ⟨F, _, ⟨φ⟩⟩ := exists_byteModel
  have hpattern := φ.errorPattern_syndromes (received := received) hnb hn hcode
  obtain ⟨hloc, hshort⟩ := φ.berlekampMassey_shortest (syndromes received nb n) hn
  exact hpattern.length_eq hloc (hshort _ _ hpattern.polyLocator_prod) hhalf

/-- The positions whose inverse element is a root of the locator are those of the errors. -/
theorem polyEval_locator_eq_zero_iff {i : Nat} (hi : i < nb) :
    polyEval (berlekampMassey (syndromes received nb n) n).1 (positionInverse i) = 0 ↔
      i ∈ errorDegrees received blk nb := by
  obtain ⟨F, _, ⟨φ⟩⟩ := exists_byteModel
  have hpattern := φ.errorPattern_syndromes (received := received) hnb hn hcode
  obtain ⟨hloc, hshort⟩ := φ.berlekampMassey_shortest (syndromes received nb n) hn
  have hle := hshort _ _ hpattern.polyLocator_prod
  rw [φ.polyEval_eq_zero_iff _ (by omega)]
  refine ⟨hpattern.mem_of_eval_eq_zero hloc hle hhalf (φ.places_injOn fun j hj => ?_),
    fun hmem => hpattern.eval_eq_zero hloc (by omega) hmem⟩
  rcases Finset.mem_insert.mp hj with rfl | hj
  · omega
  · have := (mem_errorDegrees.mp hj).1
    omega

/-- At an error's position the magnitude is the error. -/
theorem magnitude_eq_errorAt {i : Nat} (hi : i ∈ errorDegrees received blk nb) :
    let syn := syndromes received nb n
    let sigma := (berlekampMassey syn n).1
    magnitude (derivative sigma) (evaluator sigma syn n) (positionInverse i) = errorAt received blk nb i := by
  intro syn sigma
  obtain ⟨F, _, ⟨φ⟩⟩ := exists_byteModel
  have := φ.charP_two
  have hpattern := φ.errorPattern_syndromes (received := received) hnb hn hcode
  obtain ⟨hloc, hshort⟩ := φ.berlekampMassey_shortest syn hn
  have hi255 : i ≤ 255 := by have := (mem_errorDegrees.mp hi).1; omega
  obtain ⟨hom, hsd⟩ := hpattern.forney hloc (hshort _ _ hpattern.polyLocator_prod) hhalf
    (φ.coeff_poly_evaluator sigma syn (by omega)) hi
  rw [CharTwo.neg_eq, ← φ.poly_derivative, ← φ.elem_polyEval _ hi255, ← φ.elem_polyEval _ hi255] at hom
  rw [← φ.poly_derivative, ← φ.elem_polyEval _ hi255] at hsd
  have hsd0 : polyEval (derivative sigma) (positionInverse i) ≠ 0 :=
    fun h => hsd (by rw [h]; exact φ.elem_zero)
  have hom0 : polyEval (evaluator sigma syn n) (positionInverse i) ≠ 0 := fun h =>
    mul_ne_zero (hpattern.value_ne_zero i hi) hsd (hom.symm.trans (by rw [h]; exact φ.elem_zero))
  refine φ.injective (mul_right_cancel₀ hsd ?_)
  rw [← hom, ← φ.elem_product, magnitude, product_lutDiv hom0 hsd0]

/-- Every byte's correction is its error. -/
theorem chienCorrection_eq_errorAt {i : Nat} (hi : i < nb) :
    let syn := syndromes received nb n
    let sigma := (berlekampMassey syn n).1
    chienCorrection sigma (derivative sigma) (evaluator sigma syn n) i = errorAt received blk nb i := by
  intro syn sigma
  have hroot := polyEval_locator_eq_zero_iff hnb hn hcode hhalf hi
  by_cases hmem : i ∈ errorDegrees received blk nb
  · rw [chienCorrection, if_pos (hroot.mpr hmem)]
    exact magnitude_eq_errorAt hnb hn hcode hhalf hmem
  · rw [chienCorrection, if_neg (mt hroot.mp hmem)]
    by_contra hne
    exact hmem (mem_errorDegrees.mpr ⟨hi, Ne.symm hne⟩)

/-- RS_DEC restores the codeword. -/
theorem correctedBlock_eq (htail : ∀ j, nb ≤ j → coeff received j = coeff blk j) :
    correctedBlock nb n received = blk := by
  refine poly_ext fun j _ => ?_
  by_cases hj : j < nb
  · have hcorr (i : Nat) (hi : i < nb) :
        coeff (correctedBlock nb n received) (nb - 1 - i) = coeff blk (nb - 1 - i) := by
      rw [correctedBlock, coeff_chienForney _ _ _ _ hnb hi, chienCorrection_eq_errorAt hnb hn hcode hhalf hi, errorAt,
        ← BitVec.xor_assoc, BitVec.xor_self, BitVec.zero_xor]
    have hindex : nb - 1 - (nb - 1 - j) = j := by omega
    simpa only [hindex] using hcorr (nb - 1 - j) (by omega)
  · rw [← htail j (by omega)]
    exact coeff_chienForney_of_ge _ _ _ _ (by omega)

/-- RS_DEC counts the errors. -/
theorem chienForney_count_eq (sderiv omega : Poly) :
    (chienForney (berlekampMassey (syndromes received nb n) n).1 sderiv omega received nb).2 =
      (errorDegrees received blk nb).card := by
  rw [chienForney_count, countP_range_eq_card, errorDegrees]
  refine congrArg Finset.card (Finset.filter_congr fun i hi => ?_)
  rw [beq_iff_eq, polyEval_locator_eq_zero_iff hnb hn hcode hhalf (Finset.mem_range.mp hi), mem_errorDegrees]
  exact and_iff_right (Finset.mem_range.mp hi)

end Decoding

theorem ofNat7_toNat_eq {k : Nat} (h : k < 128) : (BitVec.ofNat 7 k).toNat = k := by
  rw [BitVec.toNat_ofNat, Nat.mod_eq_of_lt h]

/-- Settles O59: with half the parity to spare the shortest locator of the syndromes locates the errors, Forney's
formula gives them, and the corrected block is the codeword. -/
theorem rsDecCorrectsHalfTheParity : Obligations.RsDecCorrectsHalfTheParity := by
  intro s received hblock hcode htail errors hhalf
  have hn : effectiveNpar s.cfg ≤ 63 := hblock.1.2
  have hnb : blockLength s.cfg ≤ 64 := hblock.2.2
  have herrors : (errorDegrees received s.blk (blockLength s.cfg)).card = errors := card_errorDegrees ..
  have hwidth : (BitVec.ofNat 7 errors).toNat = errors := ofNat7_toNat_eq (by omega)
  rw [← herrors] at hhalf
  have hblk := correctedBlock_eq hnb hn hcode hhalf htail
  have hnz : anyNonzero (syndromes (correctedBlock (blockLength s.cfg) (effectiveNpar s.cfg) received)
      (blockLength s.cfg) (effectiveNpar s.cfg)) (effectiveNpar s.cfg) = false := by
    rw [hblk]
    exact (anyNonzero_syndromes_eq_false_iff _ _ (hn.trans (by decide))).mpr hcode
  have hl := berlekampMassey_length_eq hnb hn hcode hhalf
  have hcount := chienForney_count_eq hnb hn hcode hhalf
  rw [herrors] at hl hcount
  refine ⟨_, exec_rsDec (s := { s with blk := received }) hblock, hblk, ?_, ?_, ?_, hnz⟩
  · simp only [complete_errcode, hnz]
    rfl
  · exact (congrArg (fun k => (BitVec.ofNat 7 k).toNat) hl).trans hwidth
  · exact (congrArg (fun k => (BitVec.ofNat 7 k).toNat) (hcount _ _)).trans hwidth

/-- One changed byte is one byte that differs. -/
theorem countP_setCoeff (blk : Poly) {nb p : Nat} {v : Byte} (hp : p < nb) (hnb : nb ≤ 64) (hv : v ≠ coeff blk p) :
    ((List.range nb).countP fun j => coeff (setCoeff blk p v) j != coeff blk j) = 1 := by
  have hdiff (j : Nat) : (coeff (setCoeff blk p v) j != coeff blk j) = (j == p) := by
    rcases eq_or_ne j p with rfl | hne
    · rw [coeff_setCoeff_self _ _ (by omega), beq_self_eq_true, bne_iff_ne]
      exact hv
    · rw [coeff_setCoeff_ne _ _ hne, bne_self_eq_false, beq_false_of_ne hne]
  simp only [hdiff]
  exact List.count_eq_one_of_mem List.nodup_range (List.mem_range.mpr hp)

/-- Settles O58: one changed byte is at most half of two or more parity bytes. -/
theorem rsDecCorrectsOneByteError : Obligations.RsDecCorrectsOneByteError := by
  intro s p e hblock hnpar hp he hcode
  have hnb : blockLength s.cfg ≤ 64 := hblock.2.2
  have hone := countP_setCoeff s.blk hp hnb (v := coeff s.blk p ^^^ e) fun h => he (xor_left_eq_self_iff.mp h)
  obtain ⟨t, ht, hblk, herr, hl, hncorr, hnz⟩ := rsDecCorrectsHalfTheParity s
    (setCoeff s.blk p (coeff s.blk p ^^^ e)) hblock hcode (fun j hj => coeff_setCoeff_ne _ _ (by omega))
    (by rw [hone]; omega)
  rw [hone] at hl hncorr
  exact ⟨t, ht, hblk, herr, BitVec.eq_of_toNat_eq hl, BitVec.eq_of_toNat_eq hncorr, hnz⟩

end Sys2Proof.Proofs
end

section
/-! SUPPORT and proofs. The format-information code as a linear code over GF(2), its table and its minimum distance, the
nearest-codeword search, and FMT_ENC, FMT_DEC and SYM_LOOKUP (44_format_bch.md R103 to R111). -/

namespace Sys2Proof.Proofs

open Sys2Proof.Machine Sys2Proof.Claims

/-! ### The code (44_format_bch.md R105 to R107) -/

/-- The product of `q` and the generator 0x537 over GF(2). -/
def generatorMultiple (q : BitVec 5) : BitVec 15 :=
  forUp 5 (fun i acc => if q.getLsbD i then acc ^^^ (0x537#15 <<< i) else acc) 0

/-- The quotient of `p·x^10` by the generator `x^10 + x^8 + …`: each of its bits is also the payload's bit two places
below it. -/
def bchQuotient (p : BitVec 5) : BitVec 5 := p ^^^ (p >>> 2) ^^^ (p >>> 4)

theorem encode15_eq_formatWord : ∀ p : BitVec 5, encode15 p = formatWord p.toNat := by decide

theorem append_bchRem : ∀ p : BitVec 5, p ++ bchRem p = generatorMultiple (bchQuotient p) := by decide

/-- Without the mask the codeword is the payload with its remainder. -/
theorem encode15_xor_mask (p : BitVec 5) : encode15 p ^^^ 0x4445 = p ++ bchRem p := by
  rw [encode15, BitVec.xor_assoc, BitVec.xor_self, BitVec.xor_zero]

theorem encode15_payload (p : BitVec 5) : (encode15 p ^^^ 0x4445).extractLsb' 10 5 = p := by
  rw [encode15_xor_mask]
  exact (append_extract_high p (bchRem p) (Nat.le_refl 10)).trans BitVec.extractLsb'_eq_self

/-- Settles O44: the codeword is the multiple of the generator whose quotient is the payload's. -/
theorem fmtEncWritesTheBchCodeword : Obligations.FmtEncWritesTheBchCodeword := by
  intro p s
  exact ⟨encode15 p, exec_eq _ _, encode15_payload p,
    ⟨bchQuotient p, (encode15_xor_mask p).trans (append_bchRem p)⟩, encode15_eq_formatWord p⟩

/-! ### The Hamming distance (00_scope.md R12) -/

/-- A loop that counts is a count. -/
theorem forUp_count (holds : Nat → Bool) (n : Nat) :
    forUp n (fun i count => if holds i then count + 1 else count) 0 = (List.range n).countP holds := by
  induction n with
  | zero => rfl
  | succ n ih =>
    rw [forUp_succ, ih, List.range_succ, List.countP_append, List.countP_singleton]
    split_ifs <;> rfl

theorem popcount_xor (a b : BitVec 15) : popcount (a ^^^ b) = hamming a b := by
  rw [popcount, forUp_count, hamming]
  exact List.countP_congr fun i _ => by rw [BitVec.getLsbD_xor, Bool.bne_eq_xor]

theorem hamming_le (a b : BitVec 15) : hamming a b ≤ 15 :=
  List.countP_le_length.trans_eq List.length_range

theorem hamming_comm (a b : BitVec 15) : hamming a b = hamming b a := by
  rw [← popcount_xor, BitVec.xor_comm, popcount_xor]

/-- The distance is Mathlib's, of the two words as families of bits. -/
theorem hamming_eq_hammingDist (a b : BitVec 15) :
    hamming a b = hammingDist (fun i : Fin 15 => a.getLsbD i) (fun i : Fin 15 => b.getLsbD i) := by
  rw [hamming, countP_range_eq_card, hammingDist, Finset.card_filter, Finset.card_filter, Finset.sum_range]
  simp only [bne_iff_ne]

theorem hamming_triangle (a b c : BitVec 15) : hamming a c ≤ hamming a b + hamming b c := by
  simp only [hamming_eq_hammingDist]
  exact hammingDist_triangle _ _ _

/-! ### The minimum distance (44_format_bch.md R108) -/

theorem xor_xor_xor_cancel (x y t : BitVec 15) : x ^^^ t ^^^ (y ^^^ t) = x ^^^ y := by
  rw [BitVec.xor_comm y t, BitVec.xor_assoc, ← BitVec.xor_assoc t, BitVec.xor_self, BitVec.zero_xor]

/-- The terms two bits select together are those each selects, added. -/
theorem ite_select_xor (b c : Bool) (x y t : BitVec 15) : (if b ^^ c then x ^^^ y ^^^ t else x ^^^ y) =
    (if b then x ^^^ t else x) ^^^ (if c then y ^^^ t else y) := by
  cases b <;> cases c
  · rfl
  · exact BitVec.xor_assoc x y t
  · change x ^^^ y ^^^ t = x ^^^ t ^^^ y
    ac_rfl
  · exact (xor_xor_xor_cancel x y t).symm

/-- A loop that adds the terms its bits select is linear in the bits. -/
theorem forUp_select_xor (q r : BitVec 5) (term : Nat → BitVec 15) (n : Nat) :
    forUp n (fun i acc => if (q ^^^ r).getLsbD i then acc ^^^ term i else acc) 0 =
      forUp n (fun i acc => if q.getLsbD i then acc ^^^ term i else acc) 0 ^^^
        forUp n (fun i acc => if r.getLsbD i then acc ^^^ term i else acc) 0 := by
  induction n with
  | zero => exact BitVec.xor_zero.symm
  | succ n ih =>
    rw [forUp_succ, ih, BitVec.getLsbD_xor, ite_select_xor]
    rfl

theorem generatorMultiple_xor (q r : BitVec 5) :
    generatorMultiple (q ^^^ r) = generatorMultiple q ^^^ generatorMultiple r := forUp_select_xor q r _ 5

theorem bchQuotient_xor (p q : BitVec 5) : bchQuotient (p ^^^ q) = bchQuotient p ^^^ bchQuotient q := by
  simp only [bchQuotient, BitVec.ushiftRight_xor_distrib]
  ac_rfl

theorem encode15_eq (p : BitVec 5) : encode15 p = generatorMultiple (bchQuotient p) ^^^ 0x4445 := by
  rw [encode15, append_bchRem]

/-- The code is linear: the mask cancels in a sum of two codewords. -/
theorem encode15_xor_encode15 (p q : BitVec 5) :
    encode15 p ^^^ encode15 q = generatorMultiple (bchQuotient (p ^^^ q)) := by
  rw [encode15_eq, encode15_eq, xor_xor_xor_cancel, bchQuotient_xor, generatorMultiple_xor]

theorem seven_le_popcount_generatorMultiple : ∀ p : BitVec 5, p ≠ 0 →
    7 ≤ popcount (generatorMultiple (bchQuotient p)) := by decide

/-- The distance of two codewords is the weight of their sum. -/
theorem seven_le_hamming_encode15 {p q : BitVec 5} (h : p ≠ q) : 7 ≤ hamming (encode15 p) (encode15 q) := by
  rw [← popcount_xor, encode15_xor_encode15]
  exact seven_le_popcount_generatorMultiple _ (mt BitVec.xor_eq_zero_iff.mp h)

theorem formatWord_eq_encode15 {p : Nat} (hp : p < 32) : formatWord p = encode15 (.ofNat 5 p) := by
  rw [encode15_eq_formatWord, BitVec.toNat_ofNat, Nat.mod_eq_of_lt hp]

/-- Two codewords within distance 3 of the same value are one. -/
theorem eq_of_hamming_le_three {p q : Nat} (hp : p < 32) (hq : q < 32) {obs : BitVec 15}
    (hpobs : hamming (formatWord p) obs ≤ 3) (hqobs : hamming (formatWord q) obs ≤ 3) : p = q := by
  by_contra hne
  have hpayloads : BitVec.ofNat 5 p ≠ BitVec.ofNat 5 q := fun heq => hne (by
    simpa [Nat.mod_eq_of_lt, hp, hq] using congrArg BitVec.toNat heq)
  have hfar : 7 ≤ hamming (formatWord p) (formatWord q) := by
    rw [formatWord_eq_encode15 hp, formatWord_eq_encode15 hq]
    exact seven_le_hamming_encode15 hpayloads
  have hnear := hamming_triangle (formatWord p) obs (formatWord q)
  rw [hamming_comm obs] at hnear
  omega

/-! ### The nearest-codeword search (44_format_bch.md R110) -/

/-- The candidate is the lowest of the nearest among the first `n` codewords, with their number. Its distance starts at
16, past every distance of 15-bit values. -/
structure IsNearest (obs : BitVec 15) (n : Nat) (c : Candidate) : Prop where
  le : ∀ p < n, c.dist ≤ hamming (formatWord p) obs
  lt : ∀ p < c.best, c.dist < hamming (formatWord p) obs
  ties : c.ties = (List.range n).countP fun p => hamming (formatWord p) obs == c.dist
  hit : c.dist < 16 → c.best < n ∧ c.dist = hamming (formatWord c.best) obs

theorem searchStep_eq (obs : BitVec 15) {p : Nat} (hp : p < 32) (c : Candidate) : searchStep obs p c =
    if hamming (formatWord p) obs < c.dist then ⟨p, hamming (formatWord p) obs, 1⟩
    else if hamming (formatWord p) obs = c.dist then { c with ties := c.ties + 1 } else c := by
  rw [searchStep, popcount_xor, ← formatWord_eq_encode15 hp]

theorem isNearest_searchStep {obs : BitVec 15} {n : Nat} {c : Candidate} (hn : n < 32) (h : IsNearest obs n c) :
    IsNearest obs (n + 1) (searchStep obs n c) := by
  obtain ⟨hle, hlt, hties, hhit⟩ := h
  have hcount (d : Nat) : (List.range (n + 1)).countP (fun p => hamming (formatWord p) obs == d) =
      (List.range n).countP (fun p => hamming (formatWord p) obs == d) +
        if hamming (formatWord n) obs = d then 1 else 0 := by
    simp [List.range_succ, List.countP_append, List.countP_singleton]
  have hle' {d : Nat} (hd : d ≤ c.dist) (hdn : d ≤ hamming (formatWord n) obs) :
      ∀ p < n + 1, d ≤ hamming (formatWord p) obs := fun p hp =>
    (Nat.lt_succ_iff_lt_or_eq.mp hp).elim (fun hp => hd.trans (hle p hp)) fun hp => hp ▸ hdn
  have hhit' : c.dist < 16 → c.best < n + 1 ∧ c.dist = hamming (formatWord c.best) obs := fun hd =>
    (hhit hd).imp_left Nat.lt_succ_of_lt
  rw [searchStep_eq obs hn]
  split_ifs with hcloser htie
  · have hnone : (List.range n).countP (fun p => hamming (formatWord p) obs == hamming (formatWord n) obs) = 0 := by
      refine List.countP_eq_zero.mpr fun p hp => ?_
      have := hle p (List.mem_range.mp hp)
      simp only [beq_iff_eq]
      omega
    exact ⟨hle' hcloser.le le_rfl, fun p hp => hcloser.trans_le (hle p hp), by simp [hcount, hnone],
      fun _ => ⟨Nat.lt_succ_self n, rfl⟩⟩
  · exact ⟨hle' le_rfl htie.ge, hlt, by simp [hcount, htie, hties], hhit'⟩
  · exact ⟨hle' le_rfl (Nat.le_of_not_lt hcloser), hlt, by simp [hcount, htie, hties], hhit'⟩

theorem isNearest_nearest (obs : BitVec 15) : IsNearest obs 32 (nearest obs) :=
  forUp_invariant (IsNearest obs)
    ⟨fun _ h => absurd h (Nat.not_lt_zero _), fun _ h => absurd h (Nat.not_lt_zero _), rfl,
      fun h => absurd h (Nat.lt_irrefl 16)⟩
    fun _ hn _ h => isNearest_searchStep hn h

/-! ### FMT_DEC's RESULT (10_state.md R23) -/

theorem symEntry_eq : ∀ sym < 8, symEntry sym = (versionOf sym, eccOf sym) := by decide

/-- RESULT's fields, one behind the other. -/
def formatFields (ties : BitVec 6) (dist : BitVec 4) (ecc version : BitVec 3) (best : BitVec 5) : Word :=
  0#2 ++ (ties ++ (0#4 ++ (dist ++ (0#1 ++ (ecc ++ (0#1 ++ (version ++ (0#3 ++ best))))))))

/-- The shifted fields do not overlap. -/
theorem fields_or (ties : BitVec 6) (dist : BitVec 4) (ecc version : BitVec 3) (best : BitVec 5) :
    (ties.setWidth 32 <<< 24) ||| (dist.setWidth 32 <<< 16) ||| (ecc.setWidth 32 <<< 12) |||
      (version.setWidth 32 <<< 8) ||| best.setWidth 32 = formatFields ties dist ecc version best := by
  refine word_ext fun k => ?_
  fin_cases k <;>
    simp [formatFields, HAppend.hAppend, append_getLsbD, -BitVec.getLsbD_eq_getElem, -BitVec.append_eq]

theorem fmtDecResult_eq {c : Candidate} (hbest : c.best < 32) (hdist : c.dist < 16) (hties : c.ties < 64) :
    fmtDecResult c = formatFields (.ofNat 6 c.ties) (.ofNat 4 c.dist) (eccOf (c.best / 4)) (versionOf (c.best / 4))
      (.ofNat 5 c.best) := by
  rw [← fields_or, BitVec.setWidth_ofNat_of_le_of_lt (w := 5) (by decide) hbest,
    BitVec.setWidth_ofNat_of_le_of_lt (w := 4) (by decide) hdist,
    BitVec.setWidth_ofNat_of_le_of_lt (w := 6) (by decide) hties, fmtDecResult, symEntry_eq _ (by omega)]

theorem formatFields_fields (ties : BitVec 6) (dist : BitVec 4) (ecc version : BitVec 3) (best : BitVec 5) :
    (formatFields ties dist ecc version best).extractLsb' 0 5 = best ∧
    (formatFields ties dist ecc version best).extractLsb' 5 3 = 0 ∧
    (formatFields ties dist ecc version best).extractLsb' 8 3 = version ∧
    (formatFields ties dist ecc version best).getLsbD 11 = false ∧
    (formatFields ties dist ecc version best).extractLsb' 12 3 = ecc ∧
    (formatFields ties dist ecc version best).getLsbD 15 = false ∧
    (formatFields ties dist ecc version best).extractLsb' 16 4 = dist ∧
    (formatFields ties dist ecc version best).extractLsb' 20 4 = 0 ∧
    (formatFields ties dist ecc version best).extractLsb' 24 6 = ties ∧
    (formatFields ties dist ecc version best).extractLsb' 30 2 = 0 := by
  simp [formatFields, HAppend.hAppend, append_getLsbD, append_extract_low, append_extract_high,
    -BitVec.getLsbD_eq_getElem, -BitVec.append_eq]

/-- What FMT_DEC writes to RESULT says of a candidate (10_state.md R23). -/
def HoldsCandidate (r : Word) (c : Candidate) : Prop :=
  r.extractLsb' 0 5 = .ofNat 5 c.best ∧ r.extractLsb' 5 3 = 0 ∧ r.extractLsb' 8 3 = versionOf (c.best / 4) ∧
  r.getLsbD 11 = false ∧ r.extractLsb' 12 3 = eccOf (c.best / 4) ∧ r.getLsbD 15 = false ∧
  (r.extractLsb' 16 4).toNat = c.dist ∧ r.extractLsb' 20 4 = 0 ∧ (r.extractLsb' 24 6).toNat = c.ties ∧
  r.extractLsb' 30 2 = 0

theorem holdsCandidate_fmtDecResult {c : Candidate} (hbest : c.best < 32) (hdist : c.dist < 16) (hties : c.ties < 64) :
    HoldsCandidate (fmtDecResult c) c := by
  rw [fmtDecResult_eq hbest hdist hties]
  obtain ⟨hpayload, hzero5, hversion, hzero11, hecc, hzero15, hdistField, hzero20, htiesField, hzero30⟩ :=
    formatFields_fields (.ofNat 6 c.ties) (.ofNat 4 c.dist) (eccOf (c.best / 4)) (versionOf (c.best / 4))
      (.ofNat 5 c.best)
  exact ⟨hpayload, hzero5, hversion, hzero11, hecc, hzero15,
    (congrArg _ hdistField).trans (Nat.mod_eq_of_lt hdist), hzero20,
    (congrArg _ htiesField).trans (Nat.mod_eq_of_lt hties), hzero30⟩

/-! ### FMT_DEC (44_format_bch.md R108, R110) -/

theorem exec_fmtDec (obs : BitVec 15) (s : State) : exec (.fmtDec obs) s = .next (completed
    (if 4 ≤ (nearest obs).dist then .fmtTooManyErrors else if 1 < (nearest obs).ties then .fmtAmbiguous else .ok)
    { s with result := fmtDecResult (nearest obs) }) := by
  rw [exec_eq_effect, effectOf]
  generalize nearest obs = c
  rfl

/-- Settles O45: the search's candidate is the nearest codeword, and RESULT holds it in its fields. -/
theorem fmtDecFindsTheNearestCodeword : Obligations.FmtDecFindsTheNearestCodeword := by
  intro obs s
  obtain ⟨hle, hlt, hties, hhit⟩ := isNearest_nearest obs
  have hdist : (nearest obs).dist < 16 := Nat.lt_of_le_of_lt ((hle 0 (by decide)).trans (hamming_le _ _)) (by decide)
  obtain ⟨hbest, hhere⟩ := hhit hdist
  have htiesLt : (nearest obs).ties < 64 := (nearest_inRange obs).ties.trans_lt (by decide)
  exact ⟨_, _, _, _, hbest, hhere, hle, hlt, hties, exec_fmtDec obs s,
    holdsCandidate_fmtDecResult hbest hdist htiesLt⟩

/-- Settles O46: no other codeword is within distance 3, so the nearest one is the payload's and has no tie. -/
theorem fmtDecCorrectsThreeFlippedBits : Obligations.FmtDecCorrectsThreeFlippedBits := by
  intro obs p s hnear
  obtain ⟨best, dist, ties, r, hbest, rfl, hle, -, hties, hexec, hpayload, -, -, -, -, -, hdist, -, hties', -⟩ :=
    fmtDecFindsTheNearestCodeword obs s
  have hclose : hamming (formatWord best) obs ≤ 3 := (hle _ p.isLt).trans hnear
  obtain rfl : best = p.toNat := eq_of_hamming_le_three hbest p.isLt hclose hnear
  have hone : ties = 1 := by
    rw [hties, ← List.count_eq_one_of_mem List.nodup_range (List.mem_range.mpr hbest)]
    refine List.countP_congr fun q hq => ?_
    rw [beq_iff_eq, beq_iff_eq]
    exact ⟨fun heq => eq_of_hamming_le_three (List.mem_range.mp hq) hbest (heq ▸ hclose) hclose,
      fun heq => by rw [heq]⟩
  rw [hone] at hexec hties'
  exact ⟨_, hexec, (if_neg (by omega)).trans (if_neg (Nat.lt_irrefl 1)),
    hpayload.trans (BitVec.eq_of_toNat_eq (Nat.mod_eq_of_lt p.isLt)), hdist, BitVec.eq_of_toNat_eq hties'⟩

/-! ### SYM_LOOKUP (44_format_bch.md R103, R111) -/

theorem symTable_eq : symTable = (List.range 8).map fun sym => (versionOf sym, eccOf sym) := by decide

/-- The table names each pair once. -/
theorem symbolNumber_of_pair : ∀ sym < 8, symbolNumber (versionOf sym) (eccOf sym) = some sym := by decide

theorem symbolNumber_eq_none {version ecc : BitVec 3}
    (h : ∀ sym < 8, ¬ (versionOf sym = version ∧ eccOf sym = ecc)) :
    symbolNumber version ecc = none := by
  rw [symbolNumber, List.findIdx?_eq_none_iff, symTable_eq]
  intro entry hentry
  obtain ⟨sym, hsym, rfl⟩ := List.mem_map.mp hentry
  exact beq_false_of_ne fun heq => h sym (List.mem_range.mp hsym) (Prod.mk.inj heq)

theorem symLookupResult_eq : ∀ sym < 8,
    symLookupResult sym = .ofNat 32 ([2, 5, 6, 6, 8, 8, 10, 14].getD sym 0 * 256 + sym) := by decide

/-- Settles O47: the pairs of the table are found at their symbol numbers, and no other is found. -/
theorem symLookupFollowsTheSymbolTable : Obligations.SymLookupFollowsTheSymbolTable := by
  intro version ecc s
  rw [exec_eq_effect, effectOf]
  refine ⟨?_, fun hother => ?_⟩
  · rintro sym hsym rfl rfl
    rw [symbolNumber_of_pair sym hsym, ← symLookupResult_eq sym hsym]
    rfl
  · rw [symbolNumber_eq_none hother]
    rfl

end Sys2Proof.Proofs
end

section
/-! SUPPORT and proofs. The engine has no trap: every step has a next state, and an error is a completion with a code of
the command's own list (60_exceptions.md R113, R118, R127). -/

namespace Sys2Proof.Proofs

open Sys2Proof.Machine Sys2Proof.Safety Sys2Proof.Claims

/-! ### No step stops the machine (60_exceptions.md R118, R127) -/

/-- A cycle resets the engine, keeps it, completes its command or counts. -/
theorem clockCycle_next (fin : Bool) (s : State) : ∃ t, clockCycle fin s = .next t := by
  rcases clockCycle_cases fin s with ⟨heq, -⟩ | ⟨heq, -⟩ | ⟨heq, -⟩ | ⟨heq, -⟩
  · exact ⟨_, heq⟩
  · exact ⟨_, heq⟩
  · exact ⟨_, heq.trans (runCommand_eq s)⟩
  · exact ⟨_, heq⟩

/-- Settles O11: a step is a clock cycle, or an event whose effect is a state. -/
theorem everyStepHasANextState : Obligations.EveryStepHasANextState := by
  intro s
  rcases step_cases s with ⟨-, heq⟩ | ⟨a, rest, -, heq⟩ | ⟨fin, rest, -, heq⟩ | ⟨lvl, rest, -, heq⟩ | ⟨rest, -, heq⟩
  · exact heq ▸ clockCycle_next true s
  · exact ⟨_, heq⟩
  · exact heq ▸ clockCycle_next fin _
  · exact ⟨_, heq⟩
  · exact ⟨_, heq⟩

/-! ### The codes a command ends with (60_exceptions.md R113) -/

/-- A codeword within distance 3 is the only one at its distance, so FMT_AMBIGUOUS is never raised (44_format_bch.md
R110). -/
theorem nearest_ties_le_one {obs : BitVec 15} (hdist : (nearest obs).dist < 4) : (nearest obs).ties ≤ 1 := by
  by_contra! hties
  obtain ⟨hbest, hhere⟩ := (isNearest_nearest obs).hit (by omega)
  have hclose : hamming (formatWord (nearest obs).best) obs ≤ 3 := hhere ▸ Nat.le_of_lt_succ hdist
  obtain ⟨t, hexec, hok, -⟩ := fmtDecCorrectsThreeFlippedBits obs (.ofNatLT _ hbest) State.reset
    (by rwa [BitVec.toNat_ofNatLT])
  rw [exec_fmtDec, if_neg hdist.not_ge, if_pos hties] at hexec
  cases hexec
  cases hok

/-- `EndsAsListed i r`: a run of the command `i` with code and writes `r` ends with no error, or with a code of its list;
only RS_UNCORRECTABLE and FMT_TOO_MANY_ERRORS come with writes. -/
inductive EndsAsListed (i : Instr) : ErrCode × Effect → Prop where
  | ok (e : Effect) : EndsAsListed i (.ok, e)
  | unwritten {err : ErrCode} (h : err ∈ mayRaise i) : EndsAsListed i (err, {})
  | uncorrectable (e : Effect) (h : .rsUncorrectable ∈ mayRaise i) : EndsAsListed i (.rsUncorrectable, e)
  | tooManyErrors (e : Effect) (h : .fmtTooManyErrors ∈ mayRaise i) : EndsAsListed i (.fmtTooManyErrors, e)

/-- A parameter check in front of a run adds BAD_PARAM with nothing written. -/
theorem EndsAsListed.checked {i : Instr} {ok : Bool} {r : ErrCode × Effect} (hlist : .badParam ∈ mayRaise i)
    (h : EndsAsListed i r) : EndsAsListed i (checked ok r) := by
  cases ok
  · exact .unwritten hlist
  · exact h

theorem decEffect_endsAsListed (nb n : Nat) (blk : Poly) : EndsAsListed .rsDec (decEffect nb n blk) := by
  unfold decEffect
  split
  · dsimp only
    split
    · exact .uncorrectable _ (by simp [mayRaise])
    · exact .ok _
  · exact .ok _

/-- BAD_OPERAND is in the list of a GF command only for GF(16), where alone its operand check can fail. -/
theorem effectOf_endsAsListed (i : Instr) (c : Cfg) (buf : Buffer → Poly) : EndsAsListed i (effectOf i c buf) := by
  cases i with
  | nop | gfExp | fmtEnc => exact .ok _
  | rsGen | rsEnc | rsSyn | rsBm | rsOmega | rsChien => exact .checked (List.mem_singleton_self _) (.ok _)
  | rsDec => exact .checked List.mem_cons_self (decEffect_endsAsListed _ _ _)
  | gfAdd f a b | gfMul f a b =>
    rw [effectOf, ite_elements]
    split_ifs with hbad
    · exact .unwritten (by simp [mayRaise, hbad.1])
    · exact .ok _
  | gfDiv f a b =>
    rw [effectOf, ite_elements]
    split_ifs with hbad hzero
    · exact .unwritten (by simp [mayRaise, hbad.1])
    · exact .unwritten (by cases f <;> simp [mayRaise])
    · exact .ok _
  | gfLog f a =>
    rw [effectOf, ite_element]
    split_ifs with hbad hzero
    · exact .unwritten (by simp [mayRaise, hbad.1])
    · exact .unwritten (by cases f <;> simp [mayRaise])
    · exact .ok _
  | fmtDec obs =>
    rw [effectOf]
    split_ifs with hfar hties
    · exact .tooManyErrors _ (List.mem_singleton_self _)
    · exact absurd hties (nearest_ties_le_one (Nat.lt_of_not_le hfar)).not_gt
    · exact .ok _
  | symLookup v e =>
    rw [effectOf]
    cases symbolNumber v e with
    | some sym => exact .ok _
    | none => exact .unwritten (List.mem_singleton_self _)

/-- Settles O15: a command completes with a code of its list, and where that is none of the two that come with writes,
its completion is all that has changed. -/
theorem commandsRaiseOnlyTheirOwnErrors : Obligations.CommandsRaiseOnlyTheirOwnErrors := by
  intro i s
  refine ⟨_, exec_eq_effect i s, ?_⟩
  have hends := effectOf_endsAsListed i s.cfg s.buf
  generalize effectOf i s.cfg s.buf = r at hends ⊢
  rw [complete_errcode]
  cases hends with
  | ok e => exact ⟨.inl rfl, by simp⟩
  | unwritten hlist => exact ⟨.inr hlist, fun _ => rfl⟩
  | uncorrectable e hlist => exact ⟨.inr hlist, by simp⟩
  | tooManyErrors e hlist => exact ⟨.inr hlist, by simp⟩

end Sys2Proof.Proofs
end

section
/-! SUPPORT and proofs. The engine while the hardware reset is asserted, and what a reset leaves of a running command
(70_reset_and_hazards.md R128 to R130). -/

namespace Sys2Proof.Proofs

open Sys2Proof.Machine Sys2Proof.Claims

/-! ### While the hardware reset is asserted (70_reset_and_hazards.md R128) -/

/-- The port looks at no access, supported or not, while the reset input is asserted. -/
theorem portAccess_held {s : State} (hpin : s.resetPin = true) (a : Access) :
    portAccess a s = answered false (zeroAnswer a) s := by
  rw [zeroAnswer_eq_zeroData]
  exact if_pos hpin

theorem foldl_portAccess_resetPin (accesses : List Access) (s : State) :
    (accesses.foldl (fun s a => portAccess a s) s).resetPin = s.resetPin := by
  induction accesses generalizing s with
  | nil => rfl
  | cons a as ih => exact (ih (portAccess a s)).trans (portAccess_resetPin a s)

theorem clockCycle_held {s : State} (fin : Bool) (hpin : s.resetPin = true) :
    clockCycle fin s = .next (resetEngine s) := if_pos hpin

/-- Accesses do not end an assertion of the reset input. -/
theorem foldl_portAccess_assert_resetPin (accesses : List Access) (s : State) :
    (accesses.foldl (fun s a => portAccess a s) (driveResetInput true s)).resetPin = true :=
  (foldl_portAccess_resetPin accesses _).trans (driveResetInput_resetPin true s)

/-- Settles O31: no access moves the input, and an asserted input decides both the port's answer and the release. -/
theorem hardwareResetIgnoresAccesses : Obligations.HardwareResetIgnoresAccesses := by
  intro s accesses
  have hheld := foldl_portAccess_assert_resetPin accesses s
  obtain ⟨-, -, hrelease⟩ := resetLeavesTheResetValues
  exact ⟨portAccess_held hheld, driveResetInput_resetPin false _, hrelease _ hheld⟩

/-! ### The assertion of the reset input (70_reset_and_hazards.md R128, R130) -/

/-- A synchronous input's assertion is only its level, and an asynchronous one's is the reset. -/
theorem driveResetInput_assert (s : State) : driveResetInput true s =
    if Config.resetSynchronous then { s with resetPin := true } else resetEngine { s with resetPin := true } := rfl

/-- The reset state has both flags clear, so an assertion raises neither. -/
theorem driveResetInput_assert_raises_nothing (s : State) :
    (s.done = false → (driveResetInput true s).done = false) ∧
    (s.irq = false → (driveResetInput true s).irq = false) := by
  rw [driveResetInput_assert]
  split
  · exact ⟨id, id⟩
  · exact ⟨fun _ => rfl, fun _ => rfl⟩

/-- An assertion takes effect at once or leaves all but the level, by the input's synchronism (log entry 24). -/
theorem driveResetInput_assert_effect (s : State) :
    if Config.resetSynchronous then driveResetInput true s = { s with resetPin := true }
    else AtResetValues (driveResetInput true s) := by
  rw [driveResetInput_assert]
  split
  · rfl
  · exact atResetValues_resetEngine _

/-- Settles O32: a soft reset leaves an IDLE engine, which a cycle keeps; an asserted input stays asserted under the
accesses, so the next cycle or the release resets the engine and completes nothing. -/
theorem resetAbortsTheRunningCommand : Obligations.ResetAbortsTheRunningCommand := by
  intro s t rest _ hpin hstep
  refine ⟨fun v ha hv => ?_, fun ha => ?_⟩
  · have hreset : portAccess (write32 0x008 v) { s with agenda := rest } =
        resetEngine (answered false none { s with agenda := rest }) := portAccess_softReset hpin hv
    obtain rfl : portAccess (write32 0x008 v) { s with agenda := rest } = t :=
      Host.Outcome.next.inj ((step_of_agenda ha).symm.trans hstep)
    rw [hreset]
    exact ⟨atResetValues_resetEngine _, rfl, rfl, fun fin => clockCycle_idle fin hpin rfl⟩
  · obtain rfl : driveResetInput true { s with agenda := rest } = t :=
      Host.Outcome.next.inj ((step_of_agenda ha).symm.trans hstep)
    obtain ⟨hdone, hirq⟩ := driveResetInput_assert_raises_nothing { s with agenda := rest }
    refine ⟨hdone, hirq, driveResetInput_assert_effect { s with agenda := rest }, fun accesses => ?_⟩
    have hheld := foldl_portAccess_assert_resetPin accesses { s with agenda := rest }
    obtain ⟨-, -, hrelease⟩ := resetLeavesTheResetValues
    exact ⟨fun fin => ⟨_, clockCycle_held fin hheld, atResetValues_resetEngine _, hheld⟩, hrelease _ hheld⟩

end Sys2Proof.Proofs
end
